-- ==== Sys2Proof/Word.lean ====
section
/-! DEFINITION. Word.lean: the word types of the Y8002 (spec 00_scope.md R8, R11): bytes, words, long words and
quadruple words, and the three operand sizes. -/

namespace Sys2Proof

/-- 8 bits, numbered 7 to 0 (R11). -/
abbrev Byte := BitVec 8
/-- 16 bits: a register, an address, an instruction word (R8). -/
abbrev Word := BitVec 16
/-- 32 bits: a register pair (R13). -/
abbrev Long := BitVec 32
/-- 64 bits: a register quadruple (R13). -/
abbrev Quad := BitVec 64

/-- The operand sizes of R142: `N` is 1 (byte), 2 (word) or 4 (long). -/
inductive Size where
  | b | w | l
  deriving DecidableEq, Repr

/-- `W = 8N`, the operand width in bits (R300). -/
@[reducible] def Size.bits : Size → Nat
  | .b => 8
  | .w => 16
  | .l => 32

/-- `N`, the operand width in bytes (R142), as the step of an address register. -/
def Size.bytes : Size → Word
  | .b => 1
  | .w => 2
  | .l => 4

end Sys2Proof
end

