-- ==== Sys2Proof/Config.lean ====
section
/-! DEFINITION. Config.lean: the named parameters of the spec (00_scope.md R7, R10; 93_implementation_defined.md
section 2), the constants the spec recovers by decision, and the free values: opaque constants, which nothing in
Lean can evaluate, for the values the spec leaves undetermined. -/

namespace Sys2Proof

/-- `REV`: the revision modelled (R7, D1). -/
inductive Rev where
  | rev1 | full
  deriving DecidableEq, Repr

/-- `MISALIGNED` and `ODD_PC`: what an access or fetch at an odd address does (R86, R87, D3, D4). -/
inductive OddPolicy where
  | refuse | ignoreA0
  deriving DecidableEq, Repr

/-- `DIV_REM_SIGN`: whose sign a non-zero remainder has (R307, D8). -/
inductive RemSign where
  | dividend | divisor
  deriving DecidableEq, Repr

/-- `NEG_CARRY`: the sense of C after NEG (R311, D11). -/
inductive NegCarry where
  | borrow | zero
  deriving DecidableEq, Repr

/-- `SHIFT_V_RULE`: how V of a multi-step shift or rotate is formed (R500, D10). -/
inductive ShiftV where
  | anyStep | final
  deriving DecidableEq, Repr

/-- `TRT_REPEAT_UNTIL`: the end condition of TRTDRB and TRTIRB (R675, C10). -/
inductive TrtUntil where
  | nonzero | zero
  deriving DecidableEq, Repr

/-- A pattern of first words: the words that agree with `bits` where `mask` has a 1 (R16). -/
structure Pattern where
  mask : Word
  bits : Word
  deriving DecidableEq, Repr

/-- `PRIV_SET`: a set of first-word patterns (R1041, D7, 93 section 2). -/
abbrev PrivSet := List Pattern

/-- `FCW_SEG_BIT`, `FCW_SYS_BIT`, `FCW_EPA_BIT`, `FCW_D_BIT` and `FCW_H_BIT`: the positions in FCW that the lost figure
held (R35, D5). -/
structure FcwBits where
  seg : Fin 16
  sys : Fin 16
  epa : Fin 16
  d : Fin 16
  h : Fin 16
  deriving DecidableEq, Repr

/-- One place of `SPACE_MAP`: the physical store a space of a mode uses and the offset added to its addresses
(R76). Six stores are enough for the three memory spaces of two modes. DESIGN CHOICE (log entry 45): the spec gives a
size for the store of the default map alone; here every store has 2^16 bytes and the offset is a 16-bit word. -/
structure Place where
  store : Fin 6
  offset : Word
  deriving DecidableEq, Repr

/-- `SPACE_MAP`: how the pairs (memory space, mode) map to physical stores (R76, D2). -/
structure SpaceMap where
  progSys : Place
  dataSys : Place
  stackSys : Place
  progNormal : Place
  dataNormal : Place
  stackNormal : Place
  deriving DecidableEq, Repr

/-- The values of the named parameters of the spec. They are plain data that `State` carries and no step changes
(log entry 5). -/
structure Cfg where
  rev : Rev
  spaceMap : SpaceMap
  misaligned : OddPolicy
  oddPc : OddPolicy
  privSet : PrivSet
  fcwBits : FcwBits
  divRemSign : RemSign
  negCarry : NegCarry
  shiftV : ShiftV
  staticShift0ClearsC : Bool
  trtRepeatUntil : TrtUntil
  deriving DecidableEq, Repr

namespace Config

/-- The first row of R1041, which the source states: all input and output instructions, upper bytes 0x3A to 0x3F. -/
def privIo : PrivSet := [⟨0xFE00, 0x3A00⟩, ⟨0xFC00, 0x3C00⟩]

/-- The default `PRIV_SET`: the whole table of R1041 (rows beyond I/O are PRESUMED, log entry 30): I/O; DI and EI; HALT;
IRET; MSET, MRES, MBIT and MREQ; LDCTL; LDPS with a register other than R0, and LDPS with an address. -/
def privAll : PrivSet := privIo ++
  [⟨0xFFF8, 0x7C00⟩,
   ⟨0xFFFF, 0x7A00⟩,
   ⟨0xFFFF, 0x7B00⟩,
   ⟨0xFFFF, 0x7B08⟩, ⟨0xFFFF, 0x7B09⟩, ⟨0xFFFF, 0x7B0A⟩, ⟨0xFF0F, 0x7B0D⟩,
   ⟨0xFF00, 0x7D00⟩,
   ⟨0xFF8F, 0x3980⟩, ⟨0xFF4F, 0x3940⟩, ⟨0xFF2F, 0x3920⟩, ⟨0xFF1F, 0x3910⟩, ⟨0xFF0F, 0x7900⟩]

/-- The default positions (R35; PRESUMED, log entry 1). -/
def fcwBits : FcwBits := ⟨15, 14, 13, 3, 2⟩

/-- Store 0 with no offset. -/
def uniformPlace : Place := ⟨0, 0⟩

/-- The default `SPACE_MAP`: one store shared by PROG, DATA and STACK in both modes (R76, D2). -/
def uniformMap : SpaceMap :=
  ⟨uniformPlace, uniformPlace, uniformPlace, uniformPlace, uniformPlace, uniformPlace⟩

/-- The defaults of 93_implementation_defined.md section 2. -/
def defaults : Cfg where
  rev := .rev1
  spaceMap := uniformMap
  misaligned := .refuse
  oddPc := .refuse
  privSet := privAll
  fcwBits := fcwBits
  divRemSign := .dividend
  negCarry := .borrow
  shiftV := .anyStep
  staticShift0ClearsC := false
  trtRepeatUntil := .nonzero

/-- What a byte of memory that nothing has written reads as (DESIGN CHOICE, unsafe: the spec names no power-up
contents; log entry 4). -/
def blankByte : Byte := 0

/-- Free value: the destination after a division overflow, case 3 of R307 (U1, log entry 15). -/
opaque divUndefined : Nat → Quad
/-- Free value: the result byte of DAB outside its table (U7, log entry 16). -/
opaque dabResult : Nat → Byte
/-- Free value: C after DAB outside its table (U7, log entry 16). -/
opaque dabCarry : Nat → Bool
/-- Free value: Z after DAB outside its table (U7, log entry 16). -/
opaque dabZero : Nat → Bool
/-- Free value: S after DAB outside its table (U7, log entry 16). -/
opaque dabSign : Nat → Bool
/-- Free value: the Row field of REFRESH with `REV = Full` and REN = 1, when it is read and when a reset stops the counter
(U15, log entry 17). -/
opaque refreshRow : Nat → BitVec 9
/-- Free value: the data lines in a port read for which State lists no word (U16, log entry 18). -/
opaque portData : Nat → Word
/-- Free value: the level of MIB at a sample for which State lists none (U16, log entry 19). -/
opaque mibLevel : Nat → Bool
/-- Free value: a word the EPU gives when State lists none (U16, log entry 20). -/
opaque epuData : Nat → Word
/-- Free value: the identifier an acknowledge reads when State lists no pin sample (U16, log entry 21). -/
opaque ackIdent : Nat → Word
/-- Free value: what a reset in mid-instruction leaves in a byte of a register that may or may not have been written by
then (R1100, D12, log entry 23): R0 to R14 and SSP are 0 to 15, NSP is 16, REFRESH is 17. -/
opaque abandonedWord : Nat → Nat → Word
/-- Free value: what an instruction holds in a register while it works: the count of MREQ (R873), the intermediate
results of multiplication and division (R307, R310). Only a reset in mid-instruction can show it (log entry 23). -/
opaque intermediateWord : Nat → Nat → Word

end Config

end Sys2Proof
end

