-- ==== Sys2Proof/Syntax.lean ====
section
/-! DEFINITION. Syntax.lean: the instructions of the Y8002 (spec/opcode_table.json, files 40 to 48). One
constructor of `Instr` per mnemonic and rule; the rows of the table that differ only in the addressing mode are the
operand forms of that constructor. -/

namespace Sys2Proof

/-- A 4-bit register code (R116): a word register, a byte register (0 to 7 RHn, 8 to 15 RLn), a pair or a
quadruple, as the instruction says. -/
abbrev Reg := BitVec 4

/-- The condition codes of R130; the name of each is one of its mnemonics (`t` is code 1000, always true). -/
inductive Cond where
  | f | lt | le | ule | ov | mi | z | c | t | ge | gt | ugt | nov | pl | nz | nc
  deriving DecidableEq, Repr

/-- The control registers LDCTL selects (R48). -/
inductive Ctl where
  | fcw | refresh | psap | nsp
  deriving DecidableEq, Repr

/-- A memory operand in the modes IR (`@Rr`), DA (`address`) and X (`address(Rr)`) of R140; also the target of CALL
and JP, whose address itself is the operand (R141). -/
inductive Mem where
  | ind (r : Reg)
  | da (address : Word)
  | x (address : Word) (r : Reg)
  deriving DecidableEq, Repr

/-- A memory operand of a load or store: the modes of `Mem`, Base Address and Base Index (R140). -/
inductive LdMem where
  | std (m : Mem)
  | ba (r : Reg) (disp : Word)
  | bx (r : Reg) (i : Reg)
  deriving DecidableEq, Repr

/-- The source of LDA: DA, X, BA or BX (R206). -/
inductive AddrForm where
  | da (address : Word)
  | x (address : Word) (r : Reg)
  | ba (r : Reg) (disp : Word)
  | bx (r : Reg) (i : Reg)
  deriving DecidableEq, Repr

/-- A destination in R, IR, DA or X (also the source of EX and PUSHL). -/
inductive Dst where
  | reg (c : Reg)
  | mem (m : Mem)
  deriving DecidableEq, Repr

/-- A source of size `z` in R, IM, IR, DA or X. -/
inductive Src (z : Size) where
  | reg (c : Reg)
  | imm (v : BitVec z.bits)
  | mem (m : Mem)
  deriving DecidableEq, Repr

/-- The source of LD, LDB and LDL: R, IR, DA, X, BA or BX (R203). -/
inductive LdSrc where
  | reg (c : Reg)
  | mem (m : LdMem)
  deriving DecidableEq, Repr

/-- The port of IN and OUT: a register that holds the port address, or the port address itself (R752, R760). -/
inductive PortForm where
  | ir (r : Reg)
  | da (port : Word)
  deriving DecidableEq, Repr

/-- The instructions. The docstring of a constructor names the rule that defines it. -/
inductive Instr where
  /-- CLR: R201. -/
  | clr (dst : Dst)
  /-- CLRB: R201. -/
  | clrb (dst : Dst)
  /-- EX: R202. -/
  | ex (d : Reg) (src : Dst)
  /-- EXB: R202. -/
  | exb (d : Reg) (src : Dst)
  /-- LD: R203, load register. -/
  | ld (d : Reg) (src : LdSrc)
  /-- LDB: R203, load register. -/
  | ldb (d : Reg) (src : LdSrc)
  /-- LDL: R203, load register. -/
  | ldl (d : Reg) (src : LdSrc)
  /-- LD: R204, load memory (store). -/
  | ldStore (dst : LdMem) (s : Reg)
  /-- LDB: R204, load memory (store). -/
  | ldbStore (dst : LdMem) (s : Reg)
  /-- LDL: R204, load memory (store). -/
  | ldlStore (dst : LdMem) (s : Reg)
  /-- LD: R205, load immediate. -/
  | ldImm (dst : Dst) (data : Word)
  /-- LDB: R205, two-word and three-word forms. -/
  | ldbImm (dst : Dst) (data : Byte)
  /-- LDB: R205, compact form. -/
  | ldbImmCompact (d : Reg) (data : Byte)
  /-- LDL: R205. -/
  | ldlImm (d : Reg) (data : Long)
  /-- LDA: R206. -/
  | lda (d : Reg) (src : AddrForm)
  /-- LDAR: R207. -/
  | ldar (d : Reg) (disp : Word)
  /-- LDK: R208. -/
  | ldk (d : Reg) (k : BitVec 4)
  /-- LDM: R209, registers from memory; the count is `n + 1`. -/
  | ldmLoad (d : Reg) (src : Mem) (n : BitVec 4)
  /-- LDM: R210, memory from registers; the count is `n + 1`. -/
  | ldmStore (dst : Mem) (s : Reg) (n : BitVec 4)
  /-- LDR: R211. -/
  | ldr (d : Reg) (disp : Word)
  /-- LDRB: R211. -/
  | ldrb (d : Reg) (disp : Word)
  /-- LDRL: R211. -/
  | ldrl (d : Reg) (disp : Word)
  /-- LDR: R212. -/
  | ldrStore (disp : Word) (s : Reg)
  /-- LDRB: R212. -/
  | ldrbStore (disp : Word) (s : Reg)
  /-- LDRL: R212. -/
  | ldrlStore (disp : Word) (s : Reg)
  /-- POP: R213. -/
  | pop (dst : Dst) (sp : Reg)
  /-- POPL: R213. -/
  | popl (dst : Dst) (sp : Reg)
  /-- PUSH: R214. -/
  | pushw (sp : Reg) (src : Src .w)
  /-- PUSHL: R214. -/
  | pushl (sp : Reg) (src : Dst)
  /-- ADC: R301. -/
  | adc (d : Reg) (s : Reg)
  /-- ADCB: R301. -/
  | adcb (d : Reg) (s : Reg)
  /-- SBC: R312. -/
  | sbc (d : Reg) (s : Reg)
  /-- SBCB: R312. -/
  | sbcb (d : Reg) (s : Reg)
  /-- ADD: R302. -/
  | add (d : Reg) (src : Src .w)
  /-- ADDB: R302. -/
  | addb (d : Reg) (src : Src .b)
  /-- ADDL: R302. -/
  | addl (d : Reg) (src : Src .l)
  /-- CP: R303. -/
  | cp (d : Reg) (src : Src .w)
  /-- CPB: R303. -/
  | cpb (d : Reg) (src : Src .b)
  /-- CPL: R303. -/
  | cpl (d : Reg) (src : Src .l)
  /-- SUB: R313. -/
  | sub (d : Reg) (src : Src .w)
  /-- SUBB: R313. -/
  | subb (d : Reg) (src : Src .b)
  /-- SUBL: R313. -/
  | subl (d : Reg) (src : Src .l)
  /-- CP: R304. -/
  | cpImm (dst : Mem) (data : Word)
  /-- CPB: R304. -/
  | cpbImm (dst : Mem) (data : Byte)
  /-- DAB: R305. -/
  | dab (d : Reg)
  /-- DEC: R306; the amount is `n + 1`. -/
  | dec (dst : Dst) (n : BitVec 4)
  /-- DECB: R306; the amount is `n + 1`. -/
  | decb (dst : Dst) (n : BitVec 4)
  /-- INC: R309; the amount is `n + 1`. -/
  | inc (dst : Dst) (n : BitVec 4)
  /-- INCB: R309; the amount is `n + 1`. -/
  | incb (dst : Dst) (n : BitVec 4)
  /-- DIV: R307. -/
  | div (d : Reg) (src : Src .w)
  /-- DIVL: R307. -/
  | divl (d : Reg) (src : Src .l)
  /-- MULT: R310. -/
  | mult (d : Reg) (src : Src .w)
  /-- MULTL: R310. -/
  | multl (d : Reg) (src : Src .l)
  /-- EXTSB: R308. -/
  | extsb (d : Reg)
  /-- EXTS: R308. -/
  | exts (d : Reg)
  /-- EXTSL: R308. -/
  | extsl (d : Reg)
  /-- NEG: R311. -/
  | neg (dst : Dst)
  /-- NEGB: R311. -/
  | negb (dst : Dst)
  /-- AND: R401. -/
  | and (d : Reg) (src : Src .w)
  /-- ANDB: R401. -/
  | andb (d : Reg) (src : Src .b)
  /-- OR: R403. -/
  | or (d : Reg) (src : Src .w)
  /-- ORB: R403. -/
  | orb (d : Reg) (src : Src .b)
  /-- XOR: R405. -/
  | xor (d : Reg) (src : Src .w)
  /-- XORB: R405. -/
  | xorb (d : Reg) (src : Src .b)
  /-- COM: R402. -/
  | com (dst : Dst)
  /-- COMB: R402. -/
  | comb (dst : Dst)
  /-- TEST: R404. -/
  | test (dst : Dst)
  /-- TESTB: R404. -/
  | testb (dst : Dst)
  /-- TESTL: R404. -/
  | testl (dst : Dst)
  /-- TCC: R406. -/
  | tcc (cc : Cond) (d : Reg)
  /-- TCCB: R406. -/
  | tccb (cc : Cond) (d : Reg)
  /-- BIT: R410, static. -/
  | bit (dst : Dst) (n : BitVec 4)
  /-- BITB: R410, static. -/
  | bitb (dst : Dst) (n : BitVec 3)
  /-- BIT: R411, dynamic. -/
  | bitDyn (d : Reg) (s : Reg)
  /-- BITB: R411, dynamic. -/
  | bitbDyn (d : Reg) (s : Reg)
  /-- RES: R412, static. -/
  | resBit (dst : Dst) (n : BitVec 4)
  /-- RESB: R412, static. -/
  | resBitB (dst : Dst) (n : BitVec 3)
  /-- RES: R413, dynamic. -/
  | resBitDyn (d : Reg) (s : Reg)
  /-- RESB: R413, dynamic. -/
  | resBitBDyn (d : Reg) (s : Reg)
  /-- SET: R414, static. -/
  | setBit (dst : Dst) (n : BitVec 4)
  /-- SETB: R414, static. -/
  | setBitB (dst : Dst) (n : BitVec 3)
  /-- SET: R415, dynamic. -/
  | setBitDyn (d : Reg) (s : Reg)
  /-- SETB: R415, dynamic. -/
  | setBitBDyn (d : Reg) (s : Reg)
  /-- TSET: R480. -/
  | tset (dst : Dst)
  /-- TSETB: R480. -/
  | tsetb (dst : Dst)
  /-- RL: R501; by 2 when `two`, else by 1. -/
  | rl (d : Reg) (two : Bool)
  /-- RLB: R501; by 2 when `two`, else by 1. -/
  | rlb (d : Reg) (two : Bool)
  /-- RLC: R502; by 2 when `two`, else by 1. -/
  | rlc (d : Reg) (two : Bool)
  /-- RLCB: R502; by 2 when `two`, else by 1. -/
  | rlcb (d : Reg) (two : Bool)
  /-- RR: R503; by 2 when `two`, else by 1. -/
  | rr (d : Reg) (two : Bool)
  /-- RRB: R503; by 2 when `two`, else by 1. -/
  | rrb (d : Reg) (two : Bool)
  /-- RRC: R504; by 2 when `two`, else by 1. -/
  | rrc (d : Reg) (two : Bool)
  /-- RRCB: R504; by 2 when `two`, else by 1. -/
  | rrcb (d : Reg) (two : Bool)
  /-- RLDB: R505. -/
  | rldb (d : Reg) (s : Reg)
  /-- RRDB: R506. -/
  | rrdb (d : Reg) (s : Reg)
  /-- SDA: R510. -/
  | sda (d : Reg) (s : Reg)
  /-- SDAB: R510. -/
  | sdab (d : Reg) (s : Reg)
  /-- SDAL: R510. -/
  | sdal (d : Reg) (s : Reg)
  /-- SDL: R511. -/
  | sdl (d : Reg) (s : Reg)
  /-- SDLB: R511. -/
  | sdlb (d : Reg) (s : Reg)
  /-- SDLL: R511. -/
  | sdll (d : Reg) (s : Reg)
  /-- SLA: R520; `q` is the count. -/
  | sla (d : Reg) (q : BitVec 15)
  /-- SLAB: R520; `q` is the count. -/
  | slab (d : Reg) (q : BitVec 7)
  /-- SLAL: R520; `q` is the count. -/
  | slal (d : Reg) (q : BitVec 15)
  /-- SLL: R521; `q` is the count. -/
  | sll (d : Reg) (q : BitVec 15)
  /-- SLLB: R521; `q` is the count. -/
  | sllb (d : Reg) (q : BitVec 7)
  /-- SLLL: R521; `q` is the count. -/
  | slll (d : Reg) (q : BitVec 15)
  /-- SRA: R522; `q` are the bits below the sign of the negative count word. -/
  | sra (d : Reg) (q : BitVec 15)
  /-- SRAB: R522; `q` are the bits below the sign of the negative count word. -/
  | srab (d : Reg) (q : BitVec 7)
  /-- SRAL: R522; `q` are the bits below the sign of the negative count word. -/
  | sral (d : Reg) (q : BitVec 15)
  /-- SRL: R523; `q` are the bits below the sign of the negative count word. -/
  | srl (d : Reg) (q : BitVec 15)
  /-- SRLB: R523; `q` are the bits below the sign of the negative count word. -/
  | srlb (d : Reg) (q : BitVec 7)
  /-- SRLL: R523; `q` are the bits below the sign of the negative count word. -/
  | srll (d : Reg) (q : BitVec 15)
  /-- CALL: R600. -/
  | call (dst : Mem)
  /-- CALR: R601. -/
  | calr (e : BitVec 12)
  /-- DJNZ: R602. -/
  | djnz (r : Reg) (e : BitVec 7)
  /-- DBJNZ: R602. -/
  | dbjnz (r : Reg) (e : BitVec 7)
  /-- JP: R603. -/
  | jp (cc : Cond) (dst : Mem)
  /-- JR: R604. -/
  | jr (cc : Cond) (e : BitVec 8)
  /-- RET: R605. -/
  | ret (cc : Cond)
  /-- CPD: R653. -/
  | cpd (d : Reg) (s : Reg) (r : Reg) (cc : Cond)
  /-- CPDB: R653. -/
  | cpdb (d : Reg) (s : Reg) (r : Reg) (cc : Cond)
  /-- CPDR: R654. -/
  | cpdr (d : Reg) (s : Reg) (r : Reg) (cc : Cond)
  /-- CPDRB: R654. -/
  | cpdrb (d : Reg) (s : Reg) (r : Reg) (cc : Cond)
  /-- CPI: R655. -/
  | cpi (d : Reg) (s : Reg) (r : Reg) (cc : Cond)
  /-- CPIB: R655. -/
  | cpib (d : Reg) (s : Reg) (r : Reg) (cc : Cond)
  /-- CPIR: R656. -/
  | cpir (d : Reg) (s : Reg) (r : Reg) (cc : Cond)
  /-- CPIRB: R656. -/
  | cpirb (d : Reg) (s : Reg) (r : Reg) (cc : Cond)
  /-- CPSD: R657. -/
  | cpsd (d : Reg) (s : Reg) (r : Reg) (cc : Cond)
  /-- CPSDB: R657. -/
  | cpsdb (d : Reg) (s : Reg) (r : Reg) (cc : Cond)
  /-- CPSDR: R658. -/
  | cpsdr (d : Reg) (s : Reg) (r : Reg) (cc : Cond)
  /-- CPSDRB: R658. -/
  | cpsdrb (d : Reg) (s : Reg) (r : Reg) (cc : Cond)
  /-- CPSI: R659. -/
  | cpsi (d : Reg) (s : Reg) (r : Reg) (cc : Cond)
  /-- CPSIB: R659. -/
  | cpsib (d : Reg) (s : Reg) (r : Reg) (cc : Cond)
  /-- CPSIR: R660. -/
  | cpsir (d : Reg) (s : Reg) (r : Reg) (cc : Cond)
  /-- CPSIRB: R660. -/
  | cpsirb (d : Reg) (s : Reg) (r : Reg) (cc : Cond)
  /-- LDD: R661. -/
  | ldd (d : Reg) (s : Reg) (r : Reg)
  /-- LDDB: R661. -/
  | lddb (d : Reg) (s : Reg) (r : Reg)
  /-- LDDR: R662; `cc` is the condition nibble of R700. -/
  | lddr (d : Reg) (s : Reg) (r : Reg) (cc : Cond)
  /-- LDDRB: R662; `cc` is the condition nibble of R700. -/
  | lddrb (d : Reg) (s : Reg) (r : Reg) (cc : Cond)
  /-- LDI: R663. -/
  | ldi (d : Reg) (s : Reg) (r : Reg)
  /-- LDIB: R663. -/
  | ldib (d : Reg) (s : Reg) (r : Reg)
  /-- LDIR: R664; `cc` is the condition nibble of R700. -/
  | ldir (d : Reg) (s : Reg) (r : Reg) (cc : Cond)
  /-- LDIRB: R664; `cc` is the condition nibble of R700. -/
  | ldirb (d : Reg) (s : Reg) (r : Reg) (cc : Cond)
  /-- TRDB: R670. -/
  | trdb (d : Reg) (s : Reg) (r : Reg)
  /-- TRDRB: R671. -/
  | trdrb (d : Reg) (s : Reg) (r : Reg)
  /-- TRIB: R672. -/
  | trib (d : Reg) (s : Reg) (r : Reg)
  /-- TRIRB: R673. -/
  | trirb (d : Reg) (s : Reg) (r : Reg)
  /-- TRTDB: R674. -/
  | trtdb (d : Reg) (s : Reg) (r : Reg)
  /-- TRTDRB: R675. -/
  | trtdrb (d : Reg) (s : Reg) (r : Reg)
  /-- TRTIB: R676. -/
  | trtib (d : Reg) (s : Reg) (r : Reg)
  /-- TRTIRB: R677. -/
  | trtirb (d : Reg) (s : Reg) (r : Reg)
  /-- IN: R752. -/
  | inp (d : Reg) (src : PortForm)
  /-- INB: R752. -/
  | inpb (d : Reg) (src : PortForm)
  /-- SIN: R752. -/
  | sin (d : Reg) (port : Word)
  /-- SINB: R752. -/
  | sinb (d : Reg) (port : Word)
  /-- IND: R753. -/
  | ind (d : Reg) (s : Reg) (r : Reg)
  /-- INDB: R753. -/
  | indb (d : Reg) (s : Reg) (r : Reg)
  /-- SIND: R753. -/
  | sind (d : Reg) (s : Reg) (r : Reg)
  /-- SINDB: R753. -/
  | sindb (d : Reg) (s : Reg) (r : Reg)
  /-- INDR: R754; `cc` is the condition nibble of R700. -/
  | indr (d : Reg) (s : Reg) (r : Reg) (cc : Cond)
  /-- INDRB: R754; `cc` is the condition nibble of R700. -/
  | indrb (d : Reg) (s : Reg) (r : Reg) (cc : Cond)
  /-- SINDR: R754; `cc` is the condition nibble of R700. -/
  | sindr (d : Reg) (s : Reg) (r : Reg) (cc : Cond)
  /-- SINDRB: R754; `cc` is the condition nibble of R700. -/
  | sindrb (d : Reg) (s : Reg) (r : Reg) (cc : Cond)
  /-- INI: R755. -/
  | ini (d : Reg) (s : Reg) (r : Reg)
  /-- INIB: R755. -/
  | inib (d : Reg) (s : Reg) (r : Reg)
  /-- SINI: R755. -/
  | sini (d : Reg) (s : Reg) (r : Reg)
  /-- SINIB: R755. -/
  | sinib (d : Reg) (s : Reg) (r : Reg)
  /-- INIR: R756; `cc` is the condition nibble of R700. -/
  | inir (d : Reg) (s : Reg) (r : Reg) (cc : Cond)
  /-- INIRB: R756; `cc` is the condition nibble of R700. -/
  | inirb (d : Reg) (s : Reg) (r : Reg) (cc : Cond)
  /-- SINIR: R756; `cc` is the condition nibble of R700. -/
  | sinir (d : Reg) (s : Reg) (r : Reg) (cc : Cond)
  /-- SINIRB: R756; `cc` is the condition nibble of R700. -/
  | sinirb (d : Reg) (s : Reg) (r : Reg) (cc : Cond)
  /-- OUT: R760. -/
  | outp (dst : PortForm) (s : Reg)
  /-- OUTB: R760. -/
  | outpb (dst : PortForm) (s : Reg)
  /-- SOUT: R760. -/
  | sout (port : Word) (s : Reg)
  /-- SOUTB: R760. -/
  | soutb (port : Word) (s : Reg)
  /-- OUTD: R761. -/
  | outd (d : Reg) (s : Reg) (r : Reg)
  /-- OUTDB: R761. -/
  | outdb (d : Reg) (s : Reg) (r : Reg)
  /-- SOUTD: R761. -/
  | soutd (d : Reg) (s : Reg) (r : Reg)
  /-- SOUTDB: R761. -/
  | soutdb (d : Reg) (s : Reg) (r : Reg)
  /-- OTDR: R762; `cc` is the condition nibble of R700. -/
  | otdr (d : Reg) (s : Reg) (r : Reg) (cc : Cond)
  /-- OTDRB: R762; `cc` is the condition nibble of R700. -/
  | otdrb (d : Reg) (s : Reg) (r : Reg) (cc : Cond)
  /-- SOTDR: R762; `cc` is the condition nibble of R700. -/
  | sotdr (d : Reg) (s : Reg) (r : Reg) (cc : Cond)
  /-- SOTDRB: R762; `cc` is the condition nibble of R700. -/
  | sotdrb (d : Reg) (s : Reg) (r : Reg) (cc : Cond)
  /-- OUTI: R763. -/
  | outi (d : Reg) (s : Reg) (r : Reg)
  /-- OUTIB: R763. -/
  | outib (d : Reg) (s : Reg) (r : Reg)
  /-- SOUTI: R763. -/
  | souti (d : Reg) (s : Reg) (r : Reg)
  /-- SOUTIB: R763. -/
  | soutib (d : Reg) (s : Reg) (r : Reg)
  /-- OTIR: R764; `cc` is the condition nibble of R700. -/
  | otir (d : Reg) (s : Reg) (r : Reg) (cc : Cond)
  /-- OTIRB: R764; `cc` is the condition nibble of R700. -/
  | otirb (d : Reg) (s : Reg) (r : Reg) (cc : Cond)
  /-- SOTIR: R764; `cc` is the condition nibble of R700. -/
  | sotir (d : Reg) (s : Reg) (r : Reg) (cc : Cond)
  /-- SOTIRB: R764; `cc` is the condition nibble of R700. -/
  | sotirb (d : Reg) (s : Reg) (r : Reg) (cc : Cond)
  /-- COMFLG: R850. -/
  | comflg (f : BitVec 4)
  /-- RESFLG: R851. -/
  | resflg (f : BitVec 4)
  /-- SETFLG: R852. -/
  | setflg (f : BitVec 4)
  /-- NOP: R855. -/
  | nop
  /-- DI: R853. -/
  | di (v : BitVec 2)
  /-- EI: R854. -/
  | ei (v : BitVec 2)
  /-- HALT: R856. -/
  | halt
  /-- IRET: R857. -/
  | iret
  /-- SC: R858. -/
  | sc (src : Byte)
  /-- LDCTL: R860. -/
  | ldctlTo (c : Ctl) (s : Reg)
  /-- LDCTL: R861. -/
  | ldctlFrom (d : Reg) (c : Ctl)
  /-- LDCTLB: R866. -/
  | ldctlbFrom (d : Reg)
  /-- LDCTLB: R867. -/
  | ldctlbTo (s : Reg)
  /-- LDPS: R868. -/
  | ldps (src : Mem)
  /-- MSET: R870. -/
  | mset
  /-- MRES: R871. -/
  | mres
  /-- MBIT: R872. -/
  | mbit
  /-- MREQ: R873. -/
  | mreq (d : Reg)
  /-- LD: R953, register form; the count is `n + 1`, the other fields are bits only the EPU reads. -/
  | ldFromEpu (d : Reg) (w1 : BitVec 3) (id : BitVec 2) (hi : BitVec 4) (lo : BitVec 4) (n : BitVec 4)
  /-- LD: R953, memory forms. -/
  | ldFromEpuMem (dst : Mem) (id : BitVec 2) (x : BitVec 12) (n : BitVec 4)
  /-- LD: R954, register form. -/
  | ldToEpu (s : Reg) (w1 : BitVec 3) (id : BitVec 2) (hi : BitVec 4) (lo : BitVec 4) (n : BitVec 4)
  /-- LD: R954, memory forms. -/
  | ldToEpuMem (src : Mem) (id : BitVec 2) (x : BitVec 12) (n : BitVec 4)
  /-- LDB: R955. -/
  | ldbFcwEpu (w1 : BitVec 4) (id : BitVec 2) (hi : BitVec 4) (lo : BitVec 4)
  /-- LDB: R956. -/
  | ldbEpuFcw (w1 : BitVec 4) (id : BitVec 2) (hi : BitVec 4) (lo : BitVec 4)
  /-- EPUI: R957. -/
  | epui (w1 : BitVec 4) (id : BitVec 2) (x : BitVec 12) (n : BitVec 4)
  deriving DecidableEq, Repr

end Sys2Proof
end

