-- ==== Sys2Proof/WellFormed.lean ====
section
/-! DEFINITION. WellFormed.lean: which terms of `Instr` stand for an instruction the spec documents: the register
fields that must not be 0000 (R117), legal pair and quadruple codes (R25, R116), registers that must be separate
(R1126) and condition nibbles that have a meaning (R700). -/

namespace Sys2Proof

/-- A field `D` or `S` of R115: the value 0000 is not allowed (R117). -/
def Reg.nonzero (r : Reg) : Bool := r != 0
/-- A legal pair code of R116. -/
def Reg.evenCode (c : Reg) : Bool := !c.getLsbD 0
/-- A legal quadruple code of R116. -/
def Reg.quadCode (c : Reg) : Bool := !c.getLsbD 0 && !c.getLsbD 1
/-- A legal code for an operand of size `z`: long operands are pairs (R116, R142). -/
def Reg.fits (z : Size) (c : Reg) : Bool :=
  match z with
  | .b => true
  | .w => true
  | .l => Reg.evenCode c
/-- The word register that holds the byte register with code `c` (R13). -/
def Reg.byteHome (c : Reg) : Reg := c &&& 7

def Mem.wf : Mem → Bool
  | .ind r => Reg.nonzero r
  | .da _ => true
  | .x _ r => Reg.nonzero r

def LdMem.wf : LdMem → Bool
  | .std m => m.wf
  | .ba r _ => Reg.nonzero r
  | .bx r _ => Reg.nonzero r

def AddrForm.wf : AddrForm → Bool
  | .da _ => true
  | .x _ r => Reg.nonzero r
  | .ba r _ => Reg.nonzero r
  | .bx r _ => Reg.nonzero r

def Dst.wf (z : Size) : Dst → Bool
  | .reg c => Reg.fits z c
  | .mem m => m.wf

def Src.wf {z : Size} : Src z → Bool
  | .reg c => Reg.fits z c
  | .imm _ => true
  | .mem m => m.wf

def LdSrc.wf (z : Size) : LdSrc → Bool
  | .reg c => Reg.fits z c
  | .mem m => m.wf

def PortForm.wf : PortForm → Bool
  | .ir r => Reg.nonzero r
  | .da _ => true

/-- The address or index register of a memory operand is not `r`. -/
def Mem.avoids (r : Reg) : Mem → Bool
  | .ind s => s != r
  | .da _ => true
  | .x _ s => s != r

/-- POP: the destination must be separate from the stack pointer register (R213, R1126). -/
def Dst.popSeparate (z : Size) (sp : Reg) : Dst → Bool
  | .reg c => c != sp && (z != .l || c + 1 != sp)
  | .mem m => m.avoids sp

/-- MULT and DIV: a register source must not lie inside the destination (R310, R307, R1126). -/
def Src.outsidePair (d : Reg) : Src .w → Bool
  | .reg c => c != d && c != d + 1
  | _ => true
/-- MULTL and DIVL, where the destination is a quadruple and the source a pair. -/
def Src.outsideQuad (d : Reg) : Src .l → Bool
  | .reg c => c != d && c != d + 2
  | _ => true

/-- Block instructions: three separate word registers (R651). -/
def Reg.separate (a b c : Reg) : Bool := a != b && a != c && b != c

/-- The condition nibble of a repeating block load (R700): 0000, or one that tests no flag the instruction writes. -/
def Cond.blockLoadOk (cc : Cond) : Bool :=
  match cc with
  | .f | .mi | .pl | .c | .nc => true
  | _ => false
/-- The condition nibble of a repeating block input or output (R700). -/
def Cond.blockIoOk (cc : Cond) : Bool :=
  match cc with
  | .f | .mi | .pl | .c | .nc | .ule | .ugt | .z | .nz => true
  | _ => false

/-- The term stands for a documented instruction whose operation the spec gives. -/
def WellFormed : Instr → Bool
  | .clr dst => dst.wf .w
  | .clrb dst => dst.wf .w
  | .ex _ src => src.wf .w
  | .exb _ src => src.wf .w
  | .ld _ src => src.wf .w
  | .ldb _ src => src.wf .w
  | .ldl d src => Reg.evenCode d && src.wf .l
  | .ldStore dst _ => dst.wf
  | .ldbStore dst _ => dst.wf
  | .ldlStore dst s => Reg.evenCode s && dst.wf
  | .ldImm dst _ => dst.wf .w
  | .ldbImm dst _ => dst.wf .w
  | .ldbImmCompact _ _ => true
  | .ldlImm d _ => Reg.evenCode d
  | .lda _ src => src.wf
  | .ldar _ _ => true
  | .ldk _ _ => true
  | .ldmLoad _ src _ => src.wf
  | .ldmStore dst _ _ => dst.wf
  | .ldr _ _ => true
  | .ldrb _ _ => true
  | .ldrl d _ => Reg.evenCode d
  | .ldrStore _ _ => true
  | .ldrbStore _ _ => true
  | .ldrlStore _ s => Reg.evenCode s
  | .pop dst sp => dst.wf .w && Reg.nonzero sp && dst.popSeparate .w sp
  | .popl dst sp => dst.wf .l && Reg.nonzero sp && dst.popSeparate .l sp
  | .pushw sp src => src.wf && Reg.nonzero sp
  | .pushl sp src => src.wf .l && Reg.nonzero sp
  | .adc _ _ => true
  | .adcb _ _ => true
  | .sbc _ _ => true
  | .sbcb _ _ => true
  | .add _ src => src.wf
  | .addb _ src => src.wf
  | .addl d src => Reg.evenCode d && src.wf
  | .cp _ src => src.wf
  | .cpb _ src => src.wf
  | .cpl d src => Reg.evenCode d && src.wf
  | .sub _ src => src.wf
  | .subb _ src => src.wf
  | .subl d src => Reg.evenCode d && src.wf
  | .cpImm dst _ => dst.wf
  | .cpbImm dst _ => dst.wf
  | .dab _ => true
  | .dec dst _ => dst.wf .w
  | .decb dst _ => dst.wf .w
  | .inc dst _ => dst.wf .w
  | .incb dst _ => dst.wf .w
  | .div d src => Reg.evenCode d && src.wf && src.outsidePair d
  | .divl d src => Reg.quadCode d && src.wf && src.outsideQuad d
  | .mult d src => Reg.evenCode d && src.wf && src.outsidePair d
  | .multl d src => Reg.quadCode d && src.wf && src.outsideQuad d
  | .extsb _ => true
  | .exts d => Reg.evenCode d
  | .extsl d => Reg.quadCode d
  | .neg dst => dst.wf .w
  | .negb dst => dst.wf .w
  | .and _ src => src.wf
  | .andb _ src => src.wf
  | .or _ src => src.wf
  | .orb _ src => src.wf
  | .xor _ src => src.wf
  | .xorb _ src => src.wf
  | .com dst => dst.wf .w
  | .comb dst => dst.wf .w
  | .test dst => dst.wf .w
  | .testb dst => dst.wf .w
  | .testl dst => dst.wf .l
  | .tcc _ _ => true
  | .tccb _ _ => true
  | .bit dst _ => dst.wf .w
  | .bitb dst _ => dst.wf .w
  | .bitDyn _ _ => true
  | .bitbDyn _ _ => true
  | .resBit dst _ => dst.wf .w
  | .resBitB dst _ => dst.wf .w
  | .resBitDyn _ _ => true
  | .resBitBDyn _ _ => true
  | .setBit dst _ => dst.wf .w
  | .setBitB dst _ => dst.wf .w
  | .setBitDyn _ _ => true
  | .setBitBDyn _ _ => true
  | .tset dst => dst.wf .w
  | .tsetb dst => dst.wf .w
  | .rl _ _ => true
  | .rlb _ _ => true
  | .rlc _ _ => true
  | .rlcb _ _ => true
  | .rr _ _ => true
  | .rrb _ _ => true
  | .rrc _ _ => true
  | .rrcb _ _ => true
  | .rldb d s => d != s
  | .rrdb d s => d != s
  | .sda _ _ => true
  | .sdab _ _ => true
  | .sdal d _ => Reg.evenCode d
  | .sdl _ _ => true
  | .sdlb _ _ => true
  | .sdll d _ => Reg.evenCode d
  | .sla _ _ => true
  | .slab _ _ => true
  | .slal d _ => Reg.evenCode d
  | .sll _ _ => true
  | .sllb _ _ => true
  | .slll d _ => Reg.evenCode d
  | .sra _ _ => true
  | .srab _ _ => true
  | .sral d _ => Reg.evenCode d
  | .srl _ _ => true
  | .srlb _ _ => true
  | .srll d _ => Reg.evenCode d
  | .call dst => dst.wf && dst.avoids 15
  | .calr _ => true
  | .djnz _ _ => true
  | .dbjnz _ _ => true
  | .jp _ dst => dst.wf
  | .jr _ _ => true
  | .ret _ => true
  | .cpd d s r _ => Reg.nonzero s && Reg.separate d s r
  | .cpdb d s r _ => Reg.nonzero s && Reg.byteHome d != s && Reg.byteHome d != r && s != r
  | .cpdr d s r _ => Reg.nonzero s && Reg.separate d s r
  | .cpdrb d s r _ => Reg.nonzero s && Reg.byteHome d != s && Reg.byteHome d != r && s != r
  | .cpi d s r _ => Reg.nonzero s && Reg.separate d s r
  | .cpib d s r _ => Reg.nonzero s && Reg.byteHome d != s && Reg.byteHome d != r && s != r
  | .cpir d s r _ => Reg.nonzero s && Reg.separate d s r
  | .cpirb d s r _ => Reg.nonzero s && Reg.byteHome d != s && Reg.byteHome d != r && s != r
  | .cpsd d s r _ => Reg.nonzero s && Reg.nonzero d && Reg.separate d s r
  | .cpsdb d s r _ => Reg.nonzero s && Reg.nonzero d && Reg.separate d s r
  | .cpsdr d s r _ => Reg.nonzero s && Reg.nonzero d && Reg.separate d s r
  | .cpsdrb d s r _ => Reg.nonzero s && Reg.nonzero d && Reg.separate d s r
  | .cpsi d s r _ => Reg.nonzero s && Reg.nonzero d && Reg.separate d s r
  | .cpsib d s r _ => Reg.nonzero s && Reg.nonzero d && Reg.separate d s r
  | .cpsir d s r _ => Reg.nonzero s && Reg.nonzero d && Reg.separate d s r
  | .cpsirb d s r _ => Reg.nonzero s && Reg.nonzero d && Reg.separate d s r
  | .ldd d s r => Reg.nonzero s && Reg.nonzero d && Reg.separate d s r
  | .lddb d s r => Reg.nonzero s && Reg.nonzero d && Reg.separate d s r
  | .lddr d s r cc => Reg.nonzero s && Reg.nonzero d && Reg.separate d s r && cc.blockLoadOk
  | .lddrb d s r cc => Reg.nonzero s && Reg.nonzero d && Reg.separate d s r && cc.blockLoadOk
  | .ldi d s r => Reg.nonzero s && Reg.nonzero d && Reg.separate d s r
  | .ldib d s r => Reg.nonzero s && Reg.nonzero d && Reg.separate d s r
  | .ldir d s r cc => Reg.nonzero s && Reg.nonzero d && Reg.separate d s r && cc.blockLoadOk
  | .ldirb d s r cc => Reg.nonzero s && Reg.nonzero d && Reg.separate d s r && cc.blockLoadOk
  | .trdb d s r => Reg.nonzero s && Reg.nonzero d && Reg.separate d s r
  | .trdrb d s r => Reg.nonzero s && Reg.nonzero d && Reg.separate d s r
  | .trib d s r => Reg.nonzero s && Reg.nonzero d && Reg.separate d s r
  | .trirb d s r => Reg.nonzero s && Reg.nonzero d && Reg.separate d s r
  | .trtdb d s r => Reg.nonzero s && Reg.nonzero d && Reg.separate d s r && d != 1 && s != 1 && r != 1
  | .trtdrb d s r => Reg.nonzero s && Reg.nonzero d && Reg.separate d s r && d != 1 && s != 1 && r != 1
  | .trtib d s r => Reg.nonzero s && Reg.nonzero d && Reg.separate d s r && d != 1 && s != 1 && r != 1
  | .trtirb d s r => Reg.nonzero s && Reg.nonzero d && Reg.separate d s r && d != 1 && s != 1 && r != 1
  | .inp _ src => src.wf
  | .inpb _ src => src.wf
  | .sin _ _ => true
  | .sinb _ _ => true
  | .ind d s r => Reg.nonzero s && Reg.nonzero d && Reg.separate d s r
  | .indb d s r => Reg.nonzero s && Reg.nonzero d && Reg.separate d s r
  | .sind d s r => Reg.nonzero s && Reg.nonzero d && Reg.separate d s r
  | .sindb d s r => Reg.nonzero s && Reg.nonzero d && Reg.separate d s r
  | .indr d s r cc => Reg.nonzero s && Reg.nonzero d && Reg.separate d s r && cc.blockIoOk
  | .indrb d s r cc => Reg.nonzero s && Reg.nonzero d && Reg.separate d s r && cc.blockIoOk
  | .sindr d s r cc => Reg.nonzero s && Reg.nonzero d && Reg.separate d s r && cc.blockIoOk
  | .sindrb d s r cc => Reg.nonzero s && Reg.nonzero d && Reg.separate d s r && cc.blockIoOk
  | .ini d s r => Reg.nonzero s && Reg.nonzero d && Reg.separate d s r
  | .inib d s r => Reg.nonzero s && Reg.nonzero d && Reg.separate d s r
  | .sini d s r => Reg.nonzero s && Reg.nonzero d && Reg.separate d s r
  | .sinib d s r => Reg.nonzero s && Reg.nonzero d && Reg.separate d s r
  | .inir d s r cc => Reg.nonzero s && Reg.nonzero d && Reg.separate d s r && cc.blockIoOk
  | .inirb d s r cc => Reg.nonzero s && Reg.nonzero d && Reg.separate d s r && cc.blockIoOk
  | .sinir d s r cc => Reg.nonzero s && Reg.nonzero d && Reg.separate d s r && cc.blockIoOk
  | .sinirb d s r cc => Reg.nonzero s && Reg.nonzero d && Reg.separate d s r && cc.blockIoOk
  | .outp dst _ => dst.wf
  | .outpb dst _ => dst.wf
  | .sout _ _ => true
  | .soutb _ _ => true
  | .outd d s r => Reg.nonzero s && Reg.nonzero d && Reg.separate d s r
  | .outdb d s r => Reg.nonzero s && Reg.nonzero d && Reg.separate d s r
  | .soutd d s r => Reg.nonzero s && Reg.nonzero d && Reg.separate d s r
  | .soutdb d s r => Reg.nonzero s && Reg.nonzero d && Reg.separate d s r
  | .otdr d s r cc => Reg.nonzero s && Reg.nonzero d && Reg.separate d s r && cc.blockIoOk
  | .otdrb d s r cc => Reg.nonzero s && Reg.nonzero d && Reg.separate d s r && cc.blockIoOk
  | .sotdr d s r cc => Reg.nonzero s && Reg.nonzero d && Reg.separate d s r && cc.blockIoOk
  | .sotdrb d s r cc => Reg.nonzero s && Reg.nonzero d && Reg.separate d s r && cc.blockIoOk
  | .outi d s r => Reg.nonzero s && Reg.nonzero d && Reg.separate d s r
  | .outib d s r => Reg.nonzero s && Reg.nonzero d && Reg.separate d s r
  | .souti d s r => Reg.nonzero s && Reg.nonzero d && Reg.separate d s r
  | .soutib d s r => Reg.nonzero s && Reg.nonzero d && Reg.separate d s r
  | .otir d s r cc => Reg.nonzero s && Reg.nonzero d && Reg.separate d s r && cc.blockIoOk
  | .otirb d s r cc => Reg.nonzero s && Reg.nonzero d && Reg.separate d s r && cc.blockIoOk
  | .sotir d s r cc => Reg.nonzero s && Reg.nonzero d && Reg.separate d s r && cc.blockIoOk
  | .sotirb d s r cc => Reg.nonzero s && Reg.nonzero d && Reg.separate d s r && cc.blockIoOk
  | .comflg _ => true
  | .resflg _ => true
  | .setflg _ => true
  | .nop => true
  | .di _ => true
  | .ei _ => true
  | .halt => true
  | .iret => true
  | .sc _ => true
  | .ldctlTo _ _ => true
  | .ldctlFrom _ _ => true
  | .ldctlbFrom _ => true
  | .ldctlbTo _ => true
  | .ldps src => src.wf
  | .mset => true
  | .mres => true
  | .mbit => true
  | .mreq _ => true
  | .ldFromEpu _ _ _ _ _ _ => true
  | .ldFromEpuMem dst _ _ _ => dst.wf
  | .ldToEpu _ _ _ _ _ _ => true
  | .ldToEpuMem src _ _ _ => src.wf
  | .ldbFcwEpu _ _ _ _ => true
  | .ldbEpuFcw _ _ _ _ => true
  | .epui _ _ _ _ => true

end Sys2Proof
end

