-- ==== Sys2Proof/Decode.lean ====
section
/-! DEFINITION. Decode.lean: from instruction words to `Instr` (spec 30_encoding.md R110 to R122, R150 to R158 and
the encoding tables of files 40 to 48), total on any bytes, rejecting by name; after it the encoder. -/

namespace Sys2Proof

/-- Why a sequence of words is no instruction. -/
inductive DecodeError where
  /-- A first word of R155: it raises the SC and Unimplemented Instruction Trap. -/
  | trapped
  /-- A first word that neither an instruction table nor R155 lists (R157 a to c). -/
  | undocumented
  /-- A second word with bits other than the documented ones (R157 d). -/
  | secondWord
  /-- A byte immediate word whose two copies differ (R118). -/
  | unequalCopies
  /-- A first word of the extended space that no entry documents (R958). -/
  | undocumentedExtended
  /-- The bytes end inside the instruction. -/
  | truncated
  deriving DecidableEq, Repr

/-- What the words read so far have decided: an instruction, a rejection, or how the next word goes on (R110: the
first word decides the instruction and its length). -/
inductive Decoding where
  | instr (i : Instr)
  | bad (e : DecodeError)
  | more (k : Word → Decoding)

/-- Reads the words a decoding still asks for; answers the instruction and the words that are left. -/
def Decoding.run : Decoding → List Word → Except DecodeError (Instr × List Word)
  | .instr i, ws => .ok (i, ws)
  | .bad e, _ => .error e
  | .more _, [] => .error .truncated
  | .more k, w :: ws => (k w).run ws

/-! ### Fields -/

/-- Bits 15:14, the addressing mode (R112). -/
def modeField (w : Word) : BitVec 2 := w.extractLsb' 14 2
/-- Bits 13:8, the opcode with its size bit (R111). -/
def opField (w : Word) : BitVec 6 := w.extractLsb' 8 6
/-- Bits 7:4. -/
def aField (w : Word) : BitVec 4 := w.extractLsb' 4 4
/-- Bits 3:0. -/
def bField (w : Word) : BitVec 4 := w.extractLsb' 0 4
/-- Bits 15:12 of a second word. -/
def xField (w : Word) : BitVec 4 := w.extractLsb' 12 4
/-- Bits 11:8 of a second word (R114). -/
def rField (w : Word) : BitVec 4 := w.extractLsb' 8 4
/-- The upper byte of a word. -/
def hiByte (w : Word) : Byte := w.extractLsb' 8 8
/-- The lower byte of a word. -/
def loByte (w : Word) : Byte := w.extractLsb' 0 8
/-- Bits 2:0 of a 4-bit field, the bit number of the byte bit instructions (R119). -/
def low3 (b : BitVec 4) : BitVec 3 := b.extractLsb' 0 3

/-- The condition with code `c` (R130). -/
def Cond.ofCode (c : BitVec 4) : Cond :=
  match c.toNat with
  | 0 => .f | 1 => .lt | 2 => .le | 3 => .ule | 4 => .ov | 5 => .mi | 6 => .z | 7 => .c
  | 8 => .t | 9 => .ge | 10 => .gt | 11 => .ugt | 12 => .nov | 13 => .pl | 14 => .nz | _ => .nc

/-- The code of a condition (R130). -/
def Cond.code : Cond → BitVec 4
  | .f => 0 | .lt => 1 | .le => 2 | .ule => 3 | .ov => 4 | .mi => 5 | .z => 6 | .c => 7
  | .t => 8 | .ge => 9 | .gt => 10 | .ugt => 11 | .nov => 12 | .pl => 13 | .nz => 14 | .nc => 15

/-! ### Operand forms -/

/-- Mode 00 or 01 with the address register field `f` (R112): 00 is IR, which has no form for `f` = 0000 (R117);
01 is DA for 0000 and X otherwise, with the address in the next word. -/
def memForm (m : BitVec 2) (f : Reg) (k : Mem → Decoding) : Decoding :=
  if m = 0 then
    if f = 0 then .bad .undocumented else k (.ind f)
  else
    if f = 0 then .more fun address => k (.da address) else .more fun address => k (.x address f)

/-- The byte immediate word holds the byte twice (R118). -/
def immByte (k : Byte → Decoding) : Decoding :=
  .more fun w => if hiByte w = loByte w then k (loByte w) else .bad .unequalCopies
/-- A word immediate (R118). -/
def immWord (k : Word → Decoding) : Decoding := .more k
/-- A long immediate, most significant word first (R118). -/
def immLong (k : Long → Decoding) : Decoding := .more fun h => .more fun l => k (h ++ l)

/-- An immediate of size `z`. -/
def immForm (z : Size) (k : BitVec z.bits → Decoding) : Decoding :=
  match z with
  | .b => immByte k
  | .w => immWord k
  | .l => immLong k

/-- A destination in R, IR, DA or X. -/
def dstForm (m : BitVec 2) (f : Reg) (k : Dst → Decoding) : Decoding :=
  if m = 2 then k (.reg f) else memForm m f fun a => k (.mem a)

/-- A source in R, IM, IR, DA or X (R112: mode 00 with 0000 is Immediate). -/
def srcForm (z : Size) (m : BitVec 2) (f : Reg) (k : Src z → Decoding) : Decoding :=
  if m = 2 then k (.reg f)
  else if m = 0 ∧ f = 0 then immForm z fun v => k (.imm v)
  else memForm m f fun a => k (.mem a)

/-- The loads LD, LDB and LDL: R203, and R205 for the immediate. -/
def loadForm (z : Size) (m : BitVec 2) (f : Reg) (load : LdSrc → Instr) (imm : BitVec z.bits → Instr) : Decoding :=
  if m = 2 then .instr (load (.reg f))
  else if m = 0 ∧ f = 0 then immForm z fun v => .instr (imm v)
  else memForm m f fun a => .instr (load (.mem (.std a)))

/-- Upper bytes 0x30 to 0x37 and 0x70 to 0x77 (R112): mode 00 is Base Address, or Relative Address for 0000; mode
01 is Base Index. -/
def baseForm (m : BitVec 2) (f : Reg) (relative : Word → Instr) (ba : Word → Instr) (bx : Reg → Instr) : Decoding :=
  if m = 0 then
    if f = 0 then .more fun d => .instr (relative d) else .more fun d => .instr (ba d)
  else
    if f = 0 then .bad .undocumented else .more fun w => .instr (bx (rField w))

/-- The bit instructions: static forms, and the dynamic form for mode 00 with 0000 (R411). -/
def bitForm (m : BitVec 2) (a b : BitVec 4) (static : Dst → Instr) (dynamic : Reg → Reg → Instr) : Decoding :=
  if m = 0 ∧ a = 0 then .more fun w => .instr (dynamic (rField w) b)
  else dstForm m a fun d => .instr (static d)

/-- PUSH and POP: bits 7:4 hold the stack pointer register, bits 3:0 the other operand (R112). -/
def stackForm (m : BitVec 2) (a b : BitVec 4) (k : Dst → Instr) : Decoding :=
  if a = 0 then .bad .undocumented else dstForm m b fun d => .instr (k d)

/-- The second word of the block instructions: `xxxx_rrrr_oooo_cccc` (R650); neither pointer field may be 0000. -/
def blockForm (a : Reg) (k : (other r : Reg) → Cond → Instr) : Decoding :=
  if a = 0 then .bad .undocumented
  else .more fun w =>
    if aField w = 0 then .bad .secondWord else .instr (k (aField w) (rField w) (Cond.ofCode (bField w)))

/-- Block compare with a register: the other field is a destination register, which may be 0000 (R665). -/
def compareForm (a : Reg) (k : (d r : Reg) → Cond → Instr) : Decoding :=
  if a = 0 then .bad .undocumented
  else .more fun w => .instr (k (aField w) (rField w) (Cond.ofCode (bField w)))

/-- Block load and block I/O: the nibble 1000 is the single form, every other value the repeating one (R700). -/
def loadBlockForm (a : Reg) (single : (other r : Reg) → Instr) (rep : (other r : Reg) → Cond → Instr) : Decoding :=
  blockForm a fun o r cc => if cc = .t then single o r else rep o r cc

/-- The static shifts: a count word of sign 0 is the left form, of sign 1 the right form (R121, R524). -/
def shiftForm (left right : BitVec 15 → Instr) : Decoding :=
  .more fun w => if w.msb then .instr (right (w.extractLsb' 0 15)) else .instr (left (w.extractLsb' 0 15))
/-- The byte shifts use bits 7:0 of the count word only (R524). -/
def shiftByteForm (left right : BitVec 7 → Instr) : Decoding :=
  .more fun w => if w.getLsbD 7 then .instr (right (w.extractLsb' 0 7)) else .instr (left (w.extractLsb' 0 7))
/-- The dynamic shifts: the count register is in bits 11:8 of the second word (R510, R511). -/
def dynamicForm (k : Reg → Instr) : Decoding := .more fun w => .instr (k (rField w))

/-! ### Groups of R150 -/

/-- Upper bytes 0x0C, 0x4C, 0x8C. -/
def oneByte (m : BitVec 2) (a b : BitVec 4) : Decoding :=
  match b.toNat with
  | 0 => dstForm m a fun d => .instr (.comb d)
  | 1 => if m = 2 then .instr (.ldctlbFrom a) else memForm m a fun d => immByte fun v => .instr (.cpbImm d v)
  | 2 => dstForm m a fun d => .instr (.negb d)
  | 4 => dstForm m a fun d => .instr (.testb d)
  | 5 => if m = 2 then .bad .undocumented
         else memForm m a fun d => immByte fun v => .instr (.ldbImm (.mem d) v)
  | 6 => dstForm m a fun d => .instr (.tsetb d)
  | 8 => dstForm m a fun d => .instr (.clrb d)
  | 9 => if m = 2 then .instr (.ldctlbTo a) else .bad .undocumented
  | _ => .bad .undocumented

/-- Upper bytes 0x0D, 0x4D, 0x8D. -/
def oneWord (m : BitVec 2) (a b : BitVec 4) : Decoding :=
  match b.toNat with
  | 0 => dstForm m a fun d => .instr (.com d)
  | 1 => if m = 2 then .instr (.setflg a) else memForm m a fun d => immWord fun v => .instr (.cpImm d v)
  | 2 => dstForm m a fun d => .instr (.neg d)
  | 3 => if m = 2 then .instr (.resflg a) else .bad .undocumented
  | 4 => dstForm m a fun d => .instr (.test d)
  | 5 => if m = 2 then .instr (.comflg a)
         else memForm m a fun d => immWord fun v => .instr (.ldImm (.mem d) v)
  | 6 => dstForm m a fun d => .instr (.tset d)
  | 7 => if m = 2 ∧ a = 0 then .instr .nop else .bad .undocumented
  | 8 => dstForm m a fun d => .instr (.clr d)
  | 9 => if m = 0 ∧ a ≠ 0 then immWord fun v => .instr (.pushw a (.imm v)) else .bad .undocumented
  | _ => .bad .undocumented

/-- Upper bytes 0x0F, 0x4F, 0x8F: EPU transfers of words (R953, R954). -/
def epuWord (m : BitVec 2) (a b : BitVec 4) : Decoding :=
  if m = 2 then
    if a.msb then .bad .undocumentedExtended
    else match (b.extractLsb' 2 2).toNat with
      | 0 => .more fun w => .instr
          (.ldFromEpu (rField w) (a.extractLsb' 0 3) (b.extractLsb' 0 2) (xField w) (aField w) (bField w))
      | 2 => .more fun w => .instr
          (.ldToEpu (rField w) (a.extractLsb' 0 3) (b.extractLsb' 0 2) (xField w) (aField w) (bField w))
      | _ => .bad .undocumentedExtended
  else if m = 0 ∧ a = 0 then .bad .undocumentedExtended
  else match (b.extractLsb' 2 2).toNat with
    | 3 => .more fun w => memForm m a fun d => .instr
        (.ldFromEpuMem d (b.extractLsb' 0 2) (w.extractLsb' 4 12) (bField w))
    | 1 => .more fun w => memForm m a fun d => .instr
        (.ldToEpuMem d (b.extractLsb' 0 2) (w.extractLsb' 4 12) (bField w))
    | _ => .bad .undocumentedExtended

/-- Upper bytes 0x0E, 0x4E, 0x8E: the EPU transfers of the flag byte and the internal operation (R955 to R957). -/
def epuByte (m : BitVec 2) (a b : BitVec 4) : Decoding :=
  if m = 2 then
    match (b.extractLsb' 2 2).toNat with
    | 0 => .more fun w =>
        if rField w = 0 ∧ bField w = 0 then .instr (.ldbFcwEpu a (b.extractLsb' 0 2) (xField w) (aField w))
        else .bad .secondWord
    | 1 => .more fun w => .instr (.epui a (b.extractLsb' 0 2) (w.extractLsb' 4 12) (bField w))
    | 2 => .more fun w =>
        if rField w = 0 ∧ bField w = 0 then .instr (.ldbEpuFcw a (b.extractLsb' 0 2) (xField w) (aField w))
        else .bad .secondWord
    | _ => .bad .undocumentedExtended
  else .bad .undocumentedExtended

/-- Upper bytes 0x1C, 0x5C, 0x9C: TESTL and LDM. -/
def longMultiple (m : BitVec 2) (a b : BitVec 4) : Decoding :=
  match b.toNat with
  | 8 => dstForm m a fun d => .instr (.testl d)
  | 1 => if m = 2 then .bad .undocumented
         else if m = 0 ∧ a = 0 then .bad .undocumented
         else .more fun w => memForm m a fun s => .instr (.ldmLoad (rField w) s (bField w))
  | 9 => if m = 2 then .bad .undocumented
         else if m = 0 ∧ a = 0 then .bad .undocumented
         else .more fun w => memForm m a fun d => .instr (.ldmStore d (rField w) (bField w))
  | _ => .bad .undocumented

/-- Upper byte 0xB1: sign extensions (R308). -/
def extendForm (a b : BitVec 4) : Decoding :=
  match b.toNat with
  | 0 => .instr (.extsb a)
  | 7 => .instr (.extsl a)
  | 10 => .instr (.exts a)
  | _ => .bad .undocumented

/-- Upper byte 0xB2: byte shifts and rotates. -/
def shiftByte (a b : BitVec 4) : Decoding :=
  match b.toNat with
  | 0 => .instr (.rlb a false)
  | 1 => shiftByteForm (.sllb a) (.srlb a)
  | 2 => .instr (.rlb a true)
  | 3 => dynamicForm (.sdlb a)
  | 4 => .instr (.rrb a false)
  | 6 => .instr (.rrb a true)
  | 8 => .instr (.rlcb a false)
  | 9 => shiftByteForm (.slab a) (.srab a)
  | 10 => .instr (.rlcb a true)
  | 11 => dynamicForm (.sdab a)
  | 12 => .instr (.rrcb a false)
  | 14 => .instr (.rrcb a true)
  | _ => .bad .undocumented

/-- Upper byte 0xB3: word and long shifts, word rotates. -/
def shiftWord (a b : BitVec 4) : Decoding :=
  match b.toNat with
  | 0 => .instr (.rl a false)
  | 1 => shiftForm (.sll a) (.srl a)
  | 2 => .instr (.rl a true)
  | 3 => dynamicForm (.sdl a)
  | 4 => .instr (.rr a false)
  | 5 => shiftForm (.slll a) (.srll a)
  | 6 => .instr (.rr a true)
  | 7 => dynamicForm (.sdll a)
  | 8 => .instr (.rlc a false)
  | 9 => shiftForm (.sla a) (.sra a)
  | 10 => .instr (.rlc a true)
  | 11 => dynamicForm (.sda a)
  | 12 => .instr (.rrc a false)
  | 13 => shiftForm (.slal a) (.sral a)
  | 14 => .instr (.rrc a true)
  | _ => dynamicForm (.sdal a)

/-- The second word of a translate instruction: bits 3:0 are ignored (R678). -/
def translateWord (a : Reg) (k : (s r : Reg) → Instr) : Decoding :=
  if a = 0 then .bad .undocumented
  else .more fun w => if aField w = 0 then .bad .secondWord else .instr (k (aField w) (rField w))

/-- Upper byte 0xB8: translate (R670 to R677). -/
def translateForm (a b : BitVec 4) : Decoding :=
  match b.toNat with
  | 0 => translateWord a (.trib a)
  | 2 => translateWord a (.trtib a)
  | 4 => translateWord a (.trirb a)
  | 6 => translateWord a (.trtirb a)
  | 8 => translateWord a (.trdb a)
  | 10 => translateWord a (.trtdb a)
  | 12 => translateWord a (.trdrb a)
  | 14 => translateWord a (.trtdrb a)
  | _ => .bad .undocumented

/-- Upper byte 0xBB: word block compare and block load. -/
def blockWord (a b : BitVec 4) : Decoding :=
  match b.toNat with
  | 0 => compareForm a fun d r cc => .cpi d a r cc
  | 1 => loadBlockForm a (fun d r => .ldi d a r) (fun d r cc => .ldir d a r cc)
  | 2 => blockForm a fun d r cc => .cpsi d a r cc
  | 4 => compareForm a fun d r cc => .cpir d a r cc
  | 6 => blockForm a fun d r cc => .cpsir d a r cc
  | 8 => compareForm a fun d r cc => .cpd d a r cc
  | 9 => loadBlockForm a (fun d r => .ldd d a r) (fun d r cc => .lddr d a r cc)
  | 10 => blockForm a fun d r cc => .cpsd d a r cc
  | 12 => compareForm a fun d r cc => .cpdr d a r cc
  | 14 => blockForm a fun d r cc => .cpsdr d a r cc
  | _ => .bad .undocumented

/-- Upper byte 0xBA: byte block compare and block load. -/
def blockByte (a b : BitVec 4) : Decoding :=
  match b.toNat with
  | 0 => compareForm a fun d r cc => .cpib d a r cc
  | 1 => loadBlockForm a (fun d r => .ldib d a r) (fun d r cc => .ldirb d a r cc)
  | 2 => blockForm a fun d r cc => .cpsib d a r cc
  | 4 => compareForm a fun d r cc => .cpirb d a r cc
  | 6 => blockForm a fun d r cc => .cpsirb d a r cc
  | 8 => compareForm a fun d r cc => .cpdb d a r cc
  | 9 => loadBlockForm a (fun d r => .lddb d a r) (fun d r cc => .lddrb d a r cc)
  | 10 => blockForm a fun d r cc => .cpsdb d a r cc
  | 12 => compareForm a fun d r cc => .cpdrb d a r cc
  | 14 => blockForm a fun d r cc => .cpsdrb d a r cc
  | _ => .bad .undocumented

/-- Upper byte 0x3B: word input and output (R751). In the input forms `a` holds the port, in the output forms the
memory pointer. -/
def ioWord (a b : BitVec 4) : Decoding :=
  match b.toNat with
  | 0 => loadBlockForm a (fun d r => .ini d a r) (fun d r cc => .inir d a r cc)
  | 1 => loadBlockForm a (fun d r => .sini d a r) (fun d r cc => .sinir d a r cc)
  | 2 => loadBlockForm a (fun d r => .outi d a r) (fun d r cc => .otir d a r cc)
  | 3 => loadBlockForm a (fun d r => .souti d a r) (fun d r cc => .sotir d a r cc)
  | 4 => .more fun port => .instr (.inp a (.da port))
  | 5 => .more fun port => .instr (.sin a port)
  | 6 => .more fun port => .instr (.outp (.da port) a)
  | 7 => .more fun port => .instr (.sout port a)
  | 8 => loadBlockForm a (fun d r => .ind d a r) (fun d r cc => .indr d a r cc)
  | 9 => loadBlockForm a (fun d r => .sind d a r) (fun d r cc => .sindr d a r cc)
  | 10 => loadBlockForm a (fun d r => .outd d a r) (fun d r cc => .otdr d a r cc)
  | 11 => loadBlockForm a (fun d r => .soutd d a r) (fun d r cc => .sotdr d a r cc)
  | _ => .bad .undocumented

/-- Upper byte 0x3A: byte input and output (R751). -/
def ioByte (a b : BitVec 4) : Decoding :=
  match b.toNat with
  | 0 => loadBlockForm a (fun d r => .inib d a r) (fun d r cc => .inirb d a r cc)
  | 1 => loadBlockForm a (fun d r => .sinib d a r) (fun d r cc => .sinirb d a r cc)
  | 2 => loadBlockForm a (fun d r => .outib d a r) (fun d r cc => .otirb d a r cc)
  | 3 => loadBlockForm a (fun d r => .soutib d a r) (fun d r cc => .sotirb d a r cc)
  | 4 => .more fun port => .instr (.inpb a (.da port))
  | 5 => .more fun port => .instr (.sinb a port)
  | 6 => .more fun port => .instr (.outpb (.da port) a)
  | 7 => .more fun port => .instr (.soutb port a)
  | 8 => loadBlockForm a (fun d r => .indb d a r) (fun d r cc => .indrb d a r cc)
  | 9 => loadBlockForm a (fun d r => .sindb d a r) (fun d r cc => .sindrb d a r cc)
  | 10 => loadBlockForm a (fun d r => .outdb d a r) (fun d r cc => .otdrb d a r cc)
  | 11 => loadBlockForm a (fun d r => .soutdb d a r) (fun d r cc => .sotdrb d a r cc)
  | _ => .bad .undocumented

/-- Upper byte 0x7B: IRET and the multi-micro instructions. -/
def multiMicro (a b : BitVec 4) : Decoding :=
  match b.toNat with
  | 0 => if a = 0 then .instr .iret else .bad .undocumented
  | 8 => if a = 0 then .instr .mset else .bad .undocumented
  | 9 => if a = 0 then .instr .mres else .bad .undocumented
  | 10 => if a = 0 then .instr .mbit else .bad .undocumented
  | 13 => .instr (.mreq a)
  | _ => .bad .undocumented

/-- Upper byte 0x7D: LDCTL; bit 3 is the direction, bits 2:0 the control register (R48, R860). -/
def ctlForm (a b : BitVec 4) : Decoding :=
  match b.toNat with
  | 2 => .instr (.ldctlFrom a .fcw)
  | 3 => .instr (.ldctlFrom a .refresh)
  | 5 => .instr (.ldctlFrom a .psap)
  | 7 => .instr (.ldctlFrom a .nsp)
  | 10 => .instr (.ldctlTo .fcw a)
  | 11 => .instr (.ldctlTo .refresh a)
  | 13 => .instr (.ldctlTo .psap a)
  | 15 => .instr (.ldctlTo .nsp a)
  | _ => .bad .undocumented

/-- A register field that must not be 0000 and has no other form (R117). -/
def nonzeroForm (a : Reg) (i : Instr) : Decoding := if a = 0 then .bad .undocumented else .instr i

/-- The opcode map of R150 for the modes 00, 01 and 10: one row per opcode, the modes of a row together. -/
def opcodeMap (m : BitVec 2) (op : BitVec 6) (a b : BitVec 4) : Decoding :=
  match op.toNat with
  | 0x00 => srcForm .b m a fun s => .instr (.addb b s)
  | 0x01 => srcForm .w m a fun s => .instr (.add b s)
  | 0x02 => srcForm .b m a fun s => .instr (.subb b s)
  | 0x03 => srcForm .w m a fun s => .instr (.sub b s)
  | 0x04 => srcForm .b m a fun s => .instr (.orb b s)
  | 0x05 => srcForm .w m a fun s => .instr (.or b s)
  | 0x06 => srcForm .b m a fun s => .instr (.andb b s)
  | 0x07 => srcForm .w m a fun s => .instr (.and b s)
  | 0x08 => srcForm .b m a fun s => .instr (.xorb b s)
  | 0x09 => srcForm .w m a fun s => .instr (.xor b s)
  | 0x0A => srcForm .b m a fun s => .instr (.cpb b s)
  | 0x0B => srcForm .w m a fun s => .instr (.cp b s)
  | 0x0C => oneByte m a b
  | 0x0D => oneWord m a b
  | 0x0E => epuByte m a b
  | 0x0F => epuWord m a b
  | 0x10 => srcForm .l m a fun s => .instr (.cpl b s)
  | 0x11 => stackForm m a b fun d => .pushl a d
  | 0x12 => srcForm .l m a fun s => .instr (.subl b s)
  | 0x13 => stackForm m a b fun d =>
      match d with
      | .reg c => .pushw a (.reg c)
      | .mem s => .pushw a (.mem s)
  | 0x14 => loadForm .l m a (.ldl b) (.ldlImm b)
  | 0x15 => stackForm m a b fun d => .popl d a
  | 0x16 => srcForm .l m a fun s => .instr (.addl b s)
  | 0x17 => stackForm m a b fun d => .pop d a
  | 0x18 => srcForm .l m a fun s => .instr (.multl b s)
  | 0x19 => srcForm .w m a fun s => .instr (.mult b s)
  | 0x1A => srcForm .l m a fun s => .instr (.divl b s)
  | 0x1B => srcForm .w m a fun s => .instr (.div b s)
  | 0x1C => longMultiple m a b
  | 0x1D => if m = 2 then .bad .undocumented else memForm m a fun d => .instr (.ldlStore (.std d) b)
  | 0x1E => if m = 2 then (if a = 0 then .instr (.ret (Cond.ofCode b)) else .bad .undocumented)
            else memForm m a fun d => .instr (.jp (Cond.ofCode b) d)
  | 0x1F => if m = 2 then .bad .undocumented else memForm m a fun d => .instr (.call d)
  | 0x20 => loadForm .b m a (.ldb b) (.ldbImm (.reg b))
  | 0x21 => loadForm .w m a (.ld b) (.ldImm (.reg b))
  | 0x22 => bitForm m a b (fun d => .resBitB d (low3 b)) .resBitBDyn
  | 0x23 => bitForm m a b (fun d => .resBit d b) .resBitDyn
  | 0x24 => bitForm m a b (fun d => .setBitB d (low3 b)) .setBitBDyn
  | 0x25 => bitForm m a b (fun d => .setBit d b) .setBitDyn
  | 0x26 => bitForm m a b (fun d => .bitb d (low3 b)) .bitbDyn
  | 0x27 => bitForm m a b (fun d => .bit d b) .bitDyn
  | 0x28 => dstForm m a fun d => .instr (.incb d b)
  | 0x29 => dstForm m a fun d => .instr (.inc d b)
  | 0x2A => dstForm m a fun d => .instr (.decb d b)
  | 0x2B => dstForm m a fun d => .instr (.dec d b)
  | 0x2C => dstForm m a fun s => .instr (.exb b s)
  | 0x2D => dstForm m a fun s => .instr (.ex b s)
  | 0x2E => if m = 2 then .instr (.tccb (Cond.ofCode b) a)
            else memForm m a fun d => .instr (.ldbStore (.std d) b)
  | 0x2F => if m = 2 then .instr (.tcc (Cond.ofCode b) a)
            else memForm m a fun d => .instr (.ldStore (.std d) b)
  | 0x30 => if m = 2 then .instr (.dab a)
            else baseForm m a (.ldrb b) (fun d => .ldb b (.mem (.ba a d))) (fun i => .ldb b (.mem (.bx a i)))
  | 0x31 => if m = 2 then extendForm a b
            else baseForm m a (.ldr b) (fun d => .ld b (.mem (.ba a d))) (fun i => .ld b (.mem (.bx a i)))
  | 0x32 => if m = 2 then shiftByte a b
            else baseForm m a (fun d => .ldrbStore d b) (fun d => .ldbStore (.ba a d) b)
              (fun i => .ldbStore (.bx a i) b)
  | 0x33 => if m = 2 then shiftWord a b
            else baseForm m a (fun d => .ldrStore d b) (fun d => .ldStore (.ba a d) b)
              (fun i => .ldStore (.bx a i) b)
  | 0x34 => if m = 2 then .instr (.adcb b a)
            else baseForm m a (.ldar b) (fun d => .lda b (.ba a d)) (fun i => .lda b (.bx a i))
  | 0x35 => if m = 2 then .instr (.adc b a)
            else baseForm m a (.ldrl b) (fun d => .ldl b (.mem (.ba a d))) (fun i => .ldl b (.mem (.bx a i)))
  | 0x36 => if m = 2 then .instr (.sbcb b a)
            else if m = 0 then .bad .undocumented
            else if a = 0 then .more fun address => .instr (.lda b (.da address))
            else .more fun address => .instr (.lda b (.x address a))
  | 0x37 => if m = 2 then .instr (.sbc b a)
            else baseForm m a (fun d => .ldrlStore d b) (fun d => .ldlStore (.ba a d) b)
              (fun i => .ldlStore (.bx a i) b)
  | 0x38 => if m = 2 then translateForm a b else .bad .undocumented
  | 0x39 => if m = 2 then .bad .undocumented
            else if b = 0 then memForm m a fun s => .instr (.ldps s) else .bad .undocumented
  | 0x3A => if m = 0 then ioByte a b
            else if m = 1 then (if a = 0 ∧ b = 0 then .instr .halt else .bad .undocumented)
            else blockByte a b
  | 0x3B => if m = 0 then ioWord a b else if m = 1 then multiMicro a b else blockWord a b
  | 0x3C => if m = 0 then nonzeroForm a (.inpb b (.ir a))
            else if m = 1 then
              (if a ≠ 0 then .bad .undocumented
               else match (b.extractLsb' 2 2).toNat with
                 | 0 => .instr (.di (b.extractLsb' 0 2))
                 | 1 => .instr (.ei (b.extractLsb' 0 2))
                 | _ => .bad .undocumented)
            else .instr (.rrdb b a)
  | 0x3D => if m = 0 then nonzeroForm a (.inp b (.ir a))
            else if m = 1 then ctlForm a b else .instr (.ldk a b)
  | 0x3E => if m = 0 then nonzeroForm a (.outpb (.ir a) b)
            else if m = 1 then .bad .undocumented else .instr (.rldb b a)
  | _ => if m = 0 then nonzeroForm a (.outp (.ir a) b)
         else if m = 1 then .instr (.sc (a ++ b)) else .bad .undocumented

/-- The compact formats, mode 11 (R113); the upper nibble's low two bits select the format. -/
def compactForm (op : BitVec 6) (a b : BitVec 4) : Decoding :=
  let c := op.extractLsb' 0 4
  match (op.extractLsb' 4 2).toNat with
  | 0 => .instr (.ldbImmCompact c (a ++ b))
  | 1 => .instr (.calr (c ++ a ++ b))
  | 2 => .instr (.jr (Cond.ofCode c) (a ++ b))
  | _ => if a.msb then .instr (.djnz c ((a ++ b).extractLsb' 0 7))
         else .instr (.dbjnz c ((a ++ b).extractLsb' 0 7))

/-- The first word decides (R110, R111). -/
def decode1 (w : Word) : Decoding :=
  if modeField w = 3 then compactForm (opField w) (aField w) (bField w)
  else opcodeMap (modeField w) (opField w) (aField w) (bField w)

/-! ### Trapped and extended first words -/

/-- One row of Appendix 3: a first word `w` matches when `w &&& mask = value`. -/
structure TrapRow where
  mask : Word
  value : Word
  deriving DecidableEq, Repr

/-- The rows of R155 other than the EPU rows and SC itself, in the order of the rule. -/
def trapRows : List TrapRow :=
  [⟨0xBE03, 0x0C03⟩, ⟨0xBE0A, 0x0C0A⟩, ⟨0xBE0C, 0x0C0C⟩, ⟨0xBF09, 0x0C09⟩, ⟨0xFF09, 0x4D09⟩] ++
  [⟨0x7F03, 0x0C03⟩, ⟨0x7F0A, 0x0C0A⟩, ⟨0x7F0C, 0x0C0C⟩] ++
  [⟨0xFF09, 0x8D09⟩, ⟨0xFF0A, 0x8D0A⟩, ⟨0xFF0C, 0x8D0C⟩] ++
  [⟨0xBF0F, 0x1C00⟩, ⟨0xBF02, 0x1C02⟩, ⟨0xBF04, 0x1C04⟩] ++
  [⟨0xFF00, 0x3600⟩, ⟨0xFF00, 0x3800⟩] ++
  [⟨0xFF01, 0x3901⟩, ⟨0xFF02, 0x3902⟩, ⟨0xFF04, 0x3904⟩, ⟨0xFF08, 0x3908⟩] ++
  [⟨0xFE0C, 0x3A0C⟩] ++
  [⟨0xFF09, 0x7B01⟩, ⟨0xFF0B, 0x7B02⟩, ⟨0xFF07, 0x7B03⟩, ⟨0xFF07, 0x7B04⟩, ⟨0xFF0E, 0x7B0E⟩] ++
  [⟨0xFF00, 0x7800⟩] ++
  [⟨0xFF01, 0x7901⟩, ⟨0xFF02, 0x7902⟩, ⟨0xFF04, 0x7904⟩, ⟨0xFF08, 0x7908⟩] ++
  [⟨0xFF06, 0x7D00⟩, ⟨0xFF05, 0x7D04⟩, ⟨0xFF00, 0x7E00⟩] ++
  [⟨0xFE01, 0x9C01⟩, ⟨0xFE02, 0x9C02⟩, ⟨0xFE04, 0x9C04⟩, ⟨0xFE08, 0x9C00⟩] ++
  [⟨0xFD00, 0x9D00⟩, ⟨0xFF05, 0xB205⟩, ⟨0xFF00, 0xB900⟩, ⟨0xFF01, 0xB801⟩] ++
  [⟨0xFE07, 0xBA03⟩, ⟨0xFE05, 0xBA05⟩, ⟨0xFF00, 0xBF00⟩]

/-- The first word matches a non-EPU row of R155 (SC, which shares the trap, is an instruction). -/
def unimplemented (w : Word) : Bool := trapRows.any fun t => w &&& t.mask == t.value

/-- The EPU rows of R155: upper bytes 0x0E, 0x0F, 0x4E, 0x4F, 0x8E and 0x8F. -/
def extendedWord (w : Word) : Bool := w &&& 0xBE00 == 0x0E00 || w &&& 0x7E00 == 0x0E00

/-- Decodes one instruction from a list of words; answers the words after it. -/
def decodeWords : List Word → Except DecodeError (Instr × List Word)
  | [] => .error .truncated
  | w :: ws =>
    match (decode1 w).run ws with
    | .error .undocumented => .error (if unimplemented w then .trapped else .undocumented)
    | r => r

/-- Words from bytes, most significant byte first (R78); an odd last byte is dropped. -/
def wordsOfBytes : List Byte → List Word
  | h :: l :: bs => (h ++ l) :: wordsOfBytes bs
  | _ => []

/-- The bytes of words, most significant byte first (R78). -/
def bytesOfWords : List Word → List Byte
  | [] => []
  | w :: ws => hiByte w :: loByte w :: bytesOfWords ws

/-- Decodes the first instruction of a list of bytes, as stored at ascending addresses (R110). -/
def decode (bs : List Byte) : Except DecodeError Instr := (decodeWords (wordsOfBytes bs)).map Prod.fst

/-- The words of an instruction whose bits are numbered as spec/opcode_table.json numbers them: the first word is
bits 15:0, the second bits 31:16, the third bits 47:32. -/
def tableWords (w : Nat) : List Word :=
  [BitVec.ofNat 16 w, BitVec.ofNat 16 (w >>> 16), BitVec.ofNat 16 (w >>> 32)]

/-- The instruction the decoder reads from `w`, laid out in bytes as the hardware stores it; the bits above `_nbits`
are those of `w`, that is 0. -/
def decodeTableWord (_nbits w : Nat) : Option Instr :=
  match decode (bytesOfWords (tableWords w)) with
  | .ok i => some i
  | .error _ => none

/-! ### Encoder -/

/-- A first word from its fields (R111). -/
def firstWord (m : BitVec 2) (op : BitVec 6) (a b : BitVec 4) : Word := m ++ op ++ a ++ b
/-- A second word from its fields (R114). -/
def secondWord (x r a b : BitVec 4) : Word := x ++ r ++ a ++ b

/-- The mode bits of a memory operand (R112). -/
def Mem.mode : Mem → BitVec 2
  | .ind _ => 0
  | .da _ => 1
  | .x _ _ => 1
/-- Its address register field. -/
def Mem.field : Mem → BitVec 4
  | .ind r => r
  | .da _ => 0
  | .x _ r => r
/-- Its extension words. -/
def Mem.ext : Mem → List Word
  | .ind _ => []
  | .da address => [address]
  | .x address _ => [address]

def Dst.mode : Dst → BitVec 2
  | .reg _ => 2
  | .mem m => m.mode
def Dst.field : Dst → BitVec 4
  | .reg c => c
  | .mem m => m.field
def Dst.ext : Dst → List Word
  | .reg _ => []
  | .mem m => m.ext

/-- The words of an immediate (R118). -/
def immWords : {z : Size} → BitVec z.bits → List Word
  | .b, v => [v ++ v]
  | .w, v => [v]
  | .l, v => [v.extractLsb' 16 16, v.extractLsb' 0 16]

def Src.mode {z : Size} : Src z → BitVec 2
  | .reg _ => 2
  | .imm _ => 0
  | .mem m => m.mode
def Src.field {z : Size} : Src z → BitVec 4
  | .reg c => c
  | .imm _ => 0
  | .mem m => m.field
def Src.ext {z : Size} : Src z → List Word
  | .reg _ => []
  | .imm v => immWords v
  | .mem m => m.ext

/-- A load or store of R203 and R204: `op` is the opcode of the R, IR, DA and X forms, `base` that of BA and BX;
`c` is the register of bits 3:0. -/
def LdMem.words (op base : BitVec 6) (c : Reg) : LdMem → List Word
  | .std m => firstWord m.mode op m.field c :: m.ext
  | .ba r disp => [firstWord 0 base r c, disp]
  | .bx r i => [firstWord 1 base r c, secondWord 0 i 0 0]

def LdSrc.words (op base : BitVec 6) (c : Reg) : LdSrc → List Word
  | .reg s => [firstWord 2 op s c]
  | .mem m => m.words op base c

/-- One word and a memory, register or immediate operand in bits 7:4. -/
def dstWords (op : BitVec 6) (d : Dst) (b : BitVec 4) : List Word := firstWord d.mode op d.field b :: d.ext
def srcWords {z : Size} (op : BitVec 6) (s : Src z) (b : BitVec 4) : List Word :=
  firstWord s.mode op s.field b :: s.ext
def memWords (op : BitVec 6) (m : Mem) (b : BitVec 4) : List Word := firstWord m.mode op m.field b :: m.ext

/-- A block instruction: both words (R650). -/
def blockWords (m : BitVec 2) (op : BitVec 6) (a b : BitVec 4) (r o c : BitVec 4) : List Word :=
  [firstWord m op a b, secondWord 0 r o c]

/-- A control register's code (R48). -/
def Ctl.code : Ctl → BitVec 3
  | .fcw => 2
  | .refresh => 3
  | .psap => 5
  | .nsp => 7

/-- Bit 1 of a rotate's nibble is the count minus 1 (R501). -/
def rotateNibble (base : BitVec 4) (two : Bool) : BitVec 4 := base ||| (if two then 2 else 0)

/-- The count word of a left shift, of a right shift, and of the byte shifts (R121, R524). -/
def leftCount (q : BitVec 15) : Word := 0#1 ++ q
def rightCount (q : BitVec 15) : Word := 1#1 ++ q
def leftByteCount (q : BitVec 7) : Word := 0#9 ++ q
def rightByteCount (q : BitVec 7) : Word := 0#8 ++ 1#1 ++ q

/-- The words of an instruction, from the encoding tables of files 40 to 48; ignored bits are 0 but for those of the
EPU forms. -/
def encode : Instr → List Word
  | .clr d => dstWords 0x0D d 8
  | .clrb d => dstWords 0x0C d 8
  | .ex d s => dstWords 0x2D s d
  | .exb d s => dstWords 0x2C s d
  | .ld d s => s.words 0x21 0x31 d
  | .ldb d s => s.words 0x20 0x30 d
  | .ldl d s => s.words 0x14 0x35 d
  | .ldStore d s => d.words 0x2F 0x33 s
  | .ldbStore d s => d.words 0x2E 0x32 s
  | .ldlStore d s => d.words 0x1D 0x37 s
  | .ldImm d v => 
      match d with
      | .reg c => [firstWord 0 0x21 0 c, v]
      | .mem m => memWords 0x0D m 5 ++ [v]
  | .ldbImm d v => 
      match d with
      | .reg c => [firstWord 0 0x20 0 c, v ++ v]
      | .mem m => memWords 0x0C m 5 ++ [v ++ v]
  | .ldbImmCompact d v => [0b1100#4 ++ d ++ v]
  | .ldlImm d v => firstWord 0 0x14 0 d :: immWords (z := .l) v
  | .lda d s => 
      match s with
      | .da address => [firstWord 1 0x36 0 d, address]
      | .x address r => [firstWord 1 0x36 r d, address]
      | .ba r disp => [firstWord 0 0x34 r d, disp]
      | .bx r i => [firstWord 1 0x34 r d, secondWord 0 i 0 0]
  | .ldar d v => [firstWord 0 0x34 0 d, v]
  | .ldk d k => [firstWord 2 0x3D d k]
  | .ldmLoad d s n => firstWord s.mode 0x1C s.field 1 :: secondWord 0 d 0 n :: s.ext
  | .ldmStore d s n => firstWord d.mode 0x1C d.field 9 :: secondWord 0 s 0 n :: d.ext
  | .ldr d v => [firstWord 0 0x31 0 d, v]
  | .ldrb d v => [firstWord 0 0x30 0 d, v]
  | .ldrl d v => [firstWord 0 0x35 0 d, v]
  | .ldrStore v s => [firstWord 0 0x33 0 s, v]
  | .ldrbStore v s => [firstWord 0 0x32 0 s, v]
  | .ldrlStore v s => [firstWord 0 0x37 0 s, v]
  | .pop d p => firstWord d.mode 0x17 p d.field :: d.ext
  | .popl d p => firstWord d.mode 0x15 p d.field :: d.ext
  | .pushw p s => 
      match s with
      | .imm v => [firstWord 0 0x0D p 9, v]
      | .reg c => [firstWord 2 0x13 p c]
      | .mem m => firstWord m.mode 0x13 p m.field :: m.ext
  | .pushl p s => firstWord s.mode 0x11 p s.field :: s.ext
  | .adc d s => [firstWord 2 0x35 s d]
  | .adcb d s => [firstWord 2 0x34 s d]
  | .sbc d s => [firstWord 2 0x37 s d]
  | .sbcb d s => [firstWord 2 0x36 s d]
  | .add d s => srcWords 0x01 s d
  | .addb d s => srcWords 0x00 s d
  | .addl d s => srcWords 0x16 s d
  | .cp d s => srcWords 0x0B s d
  | .cpb d s => srcWords 0x0A s d
  | .cpl d s => srcWords 0x10 s d
  | .sub d s => srcWords 0x03 s d
  | .subb d s => srcWords 0x02 s d
  | .subl d s => srcWords 0x12 s d
  | .cpImm d v => memWords 0x0D d 1 ++ [v]
  | .cpbImm d v => memWords 0x0C d 1 ++ [v ++ v]
  | .dab d => [firstWord 2 0x30 d 0]
  | .dec d n => dstWords 0x2B d n
  | .decb d n => dstWords 0x2A d n
  | .inc d n => dstWords 0x29 d n
  | .incb d n => dstWords 0x28 d n
  | .div d s => srcWords 0x1B s d
  | .divl d s => srcWords 0x1A s d
  | .mult d s => srcWords 0x19 s d
  | .multl d s => srcWords 0x18 s d
  | .extsb d => [firstWord 2 0x31 d 0]
  | .exts d => [firstWord 2 0x31 d 10]
  | .extsl d => [firstWord 2 0x31 d 7]
  | .neg d => dstWords 0x0D d 2
  | .negb d => dstWords 0x0C d 2
  | .and d s => srcWords 0x07 s d
  | .andb d s => srcWords 0x06 s d
  | .or d s => srcWords 0x05 s d
  | .orb d s => srcWords 0x04 s d
  | .xor d s => srcWords 0x09 s d
  | .xorb d s => srcWords 0x08 s d
  | .com d => dstWords 0x0D d 0
  | .comb d => dstWords 0x0C d 0
  | .test d => dstWords 0x0D d 4
  | .testb d => dstWords 0x0C d 4
  | .testl d => dstWords 0x1C d 8
  | .tcc cc d => [firstWord 2 0x2F d cc.code]
  | .tccb cc d => [firstWord 2 0x2E d cc.code]
  | .bit d n => dstWords 0x27 d n
  | .bitb d n => dstWords 0x26 d (0#1 ++ n)
  | .bitDyn d s => [firstWord 0 0x27 0 s, secondWord 0 d 0 0]
  | .bitbDyn d s => [firstWord 0 0x26 0 s, secondWord 0 d 0 0]
  | .resBit d n => dstWords 0x23 d n
  | .resBitB d n => dstWords 0x22 d (0#1 ++ n)
  | .resBitDyn d s => [firstWord 0 0x23 0 s, secondWord 0 d 0 0]
  | .resBitBDyn d s => [firstWord 0 0x22 0 s, secondWord 0 d 0 0]
  | .setBit d n => dstWords 0x25 d n
  | .setBitB d n => dstWords 0x24 d (0#1 ++ n)
  | .setBitDyn d s => [firstWord 0 0x25 0 s, secondWord 0 d 0 0]
  | .setBitBDyn d s => [firstWord 0 0x24 0 s, secondWord 0 d 0 0]
  | .tset d => dstWords 0x0D d 6
  | .tsetb d => dstWords 0x0C d 6
  | .rl d t => [firstWord 2 0x33 d (rotateNibble 0 t)]
  | .rlb d t => [firstWord 2 0x32 d (rotateNibble 0 t)]
  | .rlc d t => [firstWord 2 0x33 d (rotateNibble 8 t)]
  | .rlcb d t => [firstWord 2 0x32 d (rotateNibble 8 t)]
  | .rr d t => [firstWord 2 0x33 d (rotateNibble 4 t)]
  | .rrb d t => [firstWord 2 0x32 d (rotateNibble 4 t)]
  | .rrc d t => [firstWord 2 0x33 d (rotateNibble 12 t)]
  | .rrcb d t => [firstWord 2 0x32 d (rotateNibble 12 t)]
  | .rldb d s => [firstWord 2 0x3E s d]
  | .rrdb d s => [firstWord 2 0x3C s d]
  | .sda d s => [firstWord 2 0x33 d 11, secondWord 0 s 0 0]
  | .sdab d s => [firstWord 2 0x32 d 11, secondWord 0 s 0 0]
  | .sdal d s => [firstWord 2 0x33 d 15, secondWord 0 s 0 0]
  | .sdl d s => [firstWord 2 0x33 d 3, secondWord 0 s 0 0]
  | .sdlb d s => [firstWord 2 0x32 d 3, secondWord 0 s 0 0]
  | .sdll d s => [firstWord 2 0x33 d 7, secondWord 0 s 0 0]
  | .sla d q => [firstWord 2 0x33 d 9, leftCount q]
  | .slab d q => [firstWord 2 0x32 d 9, leftByteCount q]
  | .slal d q => [firstWord 2 0x33 d 13, leftCount q]
  | .sll d q => [firstWord 2 0x33 d 1, leftCount q]
  | .sllb d q => [firstWord 2 0x32 d 1, leftByteCount q]
  | .slll d q => [firstWord 2 0x33 d 5, leftCount q]
  | .sra d q => [firstWord 2 0x33 d 9, rightCount q]
  | .srab d q => [firstWord 2 0x32 d 9, rightByteCount q]
  | .sral d q => [firstWord 2 0x33 d 13, rightCount q]
  | .srl d q => [firstWord 2 0x33 d 1, rightCount q]
  | .srlb d q => [firstWord 2 0x32 d 1, rightByteCount q]
  | .srll d q => [firstWord 2 0x33 d 5, rightCount q]
  | .call d => memWords 0x1F d 0
  | .calr v => [0b1101#4 ++ v]
  | .djnz r v => [0b1111#4 ++ r ++ 1#1 ++ v]
  | .dbjnz r v => [0b1111#4 ++ r ++ 0#1 ++ v]
  | .jp cc d => memWords 0x1E d cc.code
  | .jr cc v => [0b1110#4 ++ cc.code ++ v]
  | .ret cc => [firstWord 2 0x1E 0 cc.code]
  | .cpd d s r cc => blockWords 2 0x3B s 8 r d cc.code
  | .cpdb d s r cc => blockWords 2 0x3A s 8 r d cc.code
  | .cpdr d s r cc => blockWords 2 0x3B s 12 r d cc.code
  | .cpdrb d s r cc => blockWords 2 0x3A s 12 r d cc.code
  | .cpi d s r cc => blockWords 2 0x3B s 0 r d cc.code
  | .cpib d s r cc => blockWords 2 0x3A s 0 r d cc.code
  | .cpir d s r cc => blockWords 2 0x3B s 4 r d cc.code
  | .cpirb d s r cc => blockWords 2 0x3A s 4 r d cc.code
  | .cpsd d s r cc => blockWords 2 0x3B s 10 r d cc.code
  | .cpsdb d s r cc => blockWords 2 0x3A s 10 r d cc.code
  | .cpsdr d s r cc => blockWords 2 0x3B s 14 r d cc.code
  | .cpsdrb d s r cc => blockWords 2 0x3A s 14 r d cc.code
  | .cpsi d s r cc => blockWords 2 0x3B s 2 r d cc.code
  | .cpsib d s r cc => blockWords 2 0x3A s 2 r d cc.code
  | .cpsir d s r cc => blockWords 2 0x3B s 6 r d cc.code
  | .cpsirb d s r cc => blockWords 2 0x3A s 6 r d cc.code
  | .ldd d s r => blockWords 2 0x3B s 9 r d 8
  | .lddb d s r => blockWords 2 0x3A s 9 r d 8
  | .lddr d s r cc => blockWords 2 0x3B s 9 r d cc.code
  | .lddrb d s r cc => blockWords 2 0x3A s 9 r d cc.code
  | .ldi d s r => blockWords 2 0x3B s 1 r d 8
  | .ldib d s r => blockWords 2 0x3A s 1 r d 8
  | .ldir d s r cc => blockWords 2 0x3B s 1 r d cc.code
  | .ldirb d s r cc => blockWords 2 0x3A s 1 r d cc.code
  | .trdb d s r => blockWords 2 0x38 d 8 r s 0
  | .trdrb d s r => blockWords 2 0x38 d 12 r s 0
  | .trib d s r => blockWords 2 0x38 d 0 r s 0
  | .trirb d s r => blockWords 2 0x38 d 4 r s 0
  | .trtdb d s r => blockWords 2 0x38 d 10 r s 0
  | .trtdrb d s r => blockWords 2 0x38 d 14 r s 14
  | .trtib d s r => blockWords 2 0x38 d 2 r s 0
  | .trtirb d s r => blockWords 2 0x38 d 6 r s 14
  | .inp d s => 
      match s with
      | .ir r => [firstWord 0 0x3D r d]
      | .da port => [firstWord 0 0x3B d 4, port]
  | .inpb d s => 
      match s with
      | .ir r => [firstWord 0 0x3C r d]
      | .da port => [firstWord 0 0x3A d 4, port]
  | .sin d v => [firstWord 0 0x3B d 5, v]
  | .sinb d v => [firstWord 0 0x3A d 5, v]
  | .ind d s r => blockWords 0 0x3B s 8 r d 8
  | .indb d s r => blockWords 0 0x3A s 8 r d 8
  | .sind d s r => blockWords 0 0x3B s 9 r d 8
  | .sindb d s r => blockWords 0 0x3A s 9 r d 8
  | .indr d s r cc => blockWords 0 0x3B s 8 r d cc.code
  | .indrb d s r cc => blockWords 0 0x3A s 8 r d cc.code
  | .sindr d s r cc => blockWords 0 0x3B s 9 r d cc.code
  | .sindrb d s r cc => blockWords 0 0x3A s 9 r d cc.code
  | .ini d s r => blockWords 0 0x3B s 0 r d 8
  | .inib d s r => blockWords 0 0x3A s 0 r d 8
  | .sini d s r => blockWords 0 0x3B s 1 r d 8
  | .sinib d s r => blockWords 0 0x3A s 1 r d 8
  | .inir d s r cc => blockWords 0 0x3B s 0 r d cc.code
  | .inirb d s r cc => blockWords 0 0x3A s 0 r d cc.code
  | .sinir d s r cc => blockWords 0 0x3B s 1 r d cc.code
  | .sinirb d s r cc => blockWords 0 0x3A s 1 r d cc.code
  | .outp d s => 
      match d with
      | .ir r => [firstWord 0 0x3F r s]
      | .da port => [firstWord 0 0x3B s 6, port]
  | .outpb d s => 
      match d with
      | .ir r => [firstWord 0 0x3E r s]
      | .da port => [firstWord 0 0x3A s 6, port]
  | .sout v s => [firstWord 0 0x3B s 7, v]
  | .soutb v s => [firstWord 0 0x3A s 7, v]
  | .outd d s r => blockWords 0 0x3B s 10 r d 8
  | .outdb d s r => blockWords 0 0x3A s 10 r d 8
  | .soutd d s r => blockWords 0 0x3B s 11 r d 8
  | .soutdb d s r => blockWords 0 0x3A s 11 r d 8
  | .otdr d s r cc => blockWords 0 0x3B s 10 r d cc.code
  | .otdrb d s r cc => blockWords 0 0x3A s 10 r d cc.code
  | .sotdr d s r cc => blockWords 0 0x3B s 11 r d cc.code
  | .sotdrb d s r cc => blockWords 0 0x3A s 11 r d cc.code
  | .outi d s r => blockWords 0 0x3B s 2 r d 8
  | .outib d s r => blockWords 0 0x3A s 2 r d 8
  | .souti d s r => blockWords 0 0x3B s 3 r d 8
  | .soutib d s r => blockWords 0 0x3A s 3 r d 8
  | .otir d s r cc => blockWords 0 0x3B s 2 r d cc.code
  | .otirb d s r cc => blockWords 0 0x3A s 2 r d cc.code
  | .sotir d s r cc => blockWords 0 0x3B s 3 r d cc.code
  | .sotirb d s r cc => blockWords 0 0x3A s 3 r d cc.code
  | .comflg f => [firstWord 2 0x0D f 5]
  | .resflg f => [firstWord 2 0x0D f 3]
  | .setflg f => [firstWord 2 0x0D f 1]
  | .nop => [firstWord 2 0x0D 0 7]
  | .di v => [firstWord 1 0x3C 0 (0#2 ++ v)]
  | .ei v => [firstWord 1 0x3C 0 (1#2 ++ v)]
  | .halt => [firstWord 1 0x3A 0 0]
  | .iret => [firstWord 1 0x3B 0 0]
  | .sc v => [0x7F#8 ++ v]
  | .ldctlTo c s => [firstWord 1 0x3D s (1#1 ++ c.code)]
  | .ldctlFrom d c => [firstWord 1 0x3D d (0#1 ++ c.code)]
  | .ldctlbFrom d => [firstWord 2 0x0C d 1]
  | .ldctlbTo s => [firstWord 2 0x0C s 9]
  | .ldps s => memWords 0x39 s 0
  | .mset => [firstWord 1 0x3B 0 8]
  | .mres => [firstWord 1 0x3B 0 9]
  | .mbit => [firstWord 1 0x3B 0 10]
  | .mreq d => [firstWord 1 0x3B d 13]
  | .ldFromEpu d w i h l n => [firstWord 2 0x0F (0#1 ++ w) (0#2 ++ i), secondWord h d l n]
  | .ldFromEpuMem d i x n => firstWord d.mode 0x0F d.field (3#2 ++ i) :: (x ++ n) :: d.ext
  | .ldToEpu s w i h l n => [firstWord 2 0x0F (0#1 ++ w) (2#2 ++ i), secondWord h s l n]
  | .ldToEpuMem s i x n => firstWord s.mode 0x0F s.field (1#2 ++ i) :: (x ++ n) :: s.ext
  | .ldbFcwEpu w i h l => [firstWord 2 0x0E w (0#2 ++ i), secondWord h 0 l 0]
  | .ldbEpuFcw w i h l => [firstWord 2 0x0E w (2#2 ++ i), secondWord h 0 l 0]
  | .epui w i x n => [firstWord 2 0x0E w (1#2 ++ i), x ++ n]

end Sys2Proof
end

