-- ==== Sys2Proof/Machine/State.lean ====
section
/-! DEFINITION. Machine/State.lean: the state of the Y8002 as plain data (spec 10_state.md, 20_memory.md R70, R76),
the reasons a step can stop, and the state after reset. -/

namespace Sys2Proof.Machine

/-- The run-time stops. The CPU itself raises nothing here (R1004); the spec's own treatment of these accesses is
`refuse`, the outside of the spec. Both are safe: the machine goes on where the model stops. -/
inductive Fault where
  /-- A word or long access at the odd address `a` with `MISALIGNED = refuse` (R86). Raised by the word accesses of
  Machine/Ops.lean. Safe. -/
  | misaligned (a : Word)
  /-- An instruction fetch at the odd address `a` with `ODD_PC = refuse` (R87). Raised by the fetch. Safe. -/
  | oddFetch (a : Word)
  deriving DecidableEq, Repr

/-- The refusals: encodings and operand choices for which the spec answers `refuse`. All are safe. -/
inductive Refusal where
  /-- An instruction without a meaning. -/
  | notModelled (mnemonic : String)
  /-- The words at PC are no instruction the spec documents (R157, R118, R958). Raised by the fetch. -/
  | undecodable (e : DecodeError)
  /-- An odd pair code: "the results will be scrambled" (R25, R156, D19). Raised by the pair accesses. -/
  | illegalPair (c : Reg)
  /-- A quadruple code other than 0, 4, 8 or 12 (R25, R156, D19). Raised by the quadruple accesses. -/
  | illegalQuad (c : Reg)
  /-- Registers that "must be separate and non-overlapping" overlap (R1126, D20). Raised by the instructions that
  rule lists. -/
  | overlap
  /-- `CALL @R15` or `CALL address(R15)` (R600, D20). Raised by CALL. -/
  | callThroughStackPointer
  /-- A condition nibble that tests a flag the block instruction writes (R700, D30). Raised by the repeating block
  loads and the repeating block inputs and outputs. -/
  | blockCondition (cc : Cond)
  deriving DecidableEq, Repr

/-- The bits of FCW that hold state (R35). SEG is permanently 0 (R41); bits 10:8 and 1:0 hold no state (R42). -/
structure Fcw where
  /-- 1 = system mode (R39). -/
  sys : Bool
  /-- 1 = extended instructions are executed (R40). -/
  epa : Bool
  /-- Vectored interrupt enable (R38). -/
  vie : Bool
  /-- Non-vectored interrupt enable (R38). -/
  nvie : Bool
  /-- Carry (R36). -/
  c : Bool
  /-- Zero (R36). -/
  z : Bool
  /-- Sign (R36). -/
  s : Bool
  /-- Overflow or parity (R36). -/
  v : Bool
  /-- Decimal adjust (R37). -/
  d : Bool
  /-- Half carry (R37). -/
  h : Bool
  deriving DecidableEq, Repr

/-- The memory spaces (R70). -/
inductive Space where
  | prog | data | stack
  deriving DecidableEq, Repr

/-- The input and output spaces (R70). -/
inductive IoSpace where
  | standard | special
  deriving DecidableEq, Repr

/-- The bus transactions the status code ST tells apart (R71), without the two reserved codes. -/
inductive Status where
  | internal | refresh | standardIo | specialIo | nmiAck | nviAck | viAck
  | data | stack | epuData | epuStack | program | firstWord | epuCpu
  deriving DecidableEq, Repr

/-- One entry of the record of what the CPU did on the bus. -/
inductive BusEvent where
  /-- A transaction with its status code, N_SB (`sys` is its complement), R_WB, B_WB, the address and the 16 data
  lines (R71, R80, R83). -/
  | transfer (st : Status) (sys read byte : Bool) (address data : Word)
  /-- An internal operation cycle of HALT, status 0000, with N_SB (`sys` is its complement), R_WB and B_WB (R71,
  R856). -/
  | idle (sys read byte : Bool)
  /-- The EPU is told to run an internal operation; it sees both opcode words (R957). -/
  | epuInternal (word1 word2 : Word)
  deriving DecidableEq, Repr

/-- RESETF in one step (R1100, D12). -/
inductive ResetPin where
  /-- Inactive. -/
  | released
  /-- Active from the start of the step: nothing executes. -/
  | asserted
  /-- Recognised inside the step, after its first `points` points (`Point`) and before the next: what it was doing is
  abandoned. -/
  | during (points : Nat)
  deriving DecidableEq, Repr

/-- What the environment drives on the reset and interrupt pins for one step (R53, R1051): RESETF, a falling edge on
NMIB, VIB low, NVIB low, and the word an interrupt acknowledge would read. -/
structure PinSample where
  reset : ResetPin
  nmiEdge : Bool
  vi : Bool
  nvi : Bool
  ident : Word
  deriving DecidableEq, Repr

/-- A point of a step at which a reset can find it (R1100, D12, log entry 23): a bus transaction, or intermediate results
in the registers of the instruction. It says what the registers hold there, what is left of the samples of MIB, how many
transactions the record lists, and the odd address that a word access of the point was asked for. The model's own. -/
structure Point where
  regs : Vector Word 16
  nsp : Word
  refresh : Word
  mib : List Bool
  made : Nat
  odd : Option Word
  deriving DecidableEq, Repr

/-- The stores as a list of (key, byte); a key is 65536 times the store number plus the address in the store. In
canonical form the keys rise strictly and no byte is `Config.blankByte` (Machine/Ops.lean, `Memory.wf`). -/
abbrev Memory := List Host.Cell

/-- The state of the machine. -/
structure State where
  /-- The parameters (00_scope.md R10). No step changes them. -/
  cfg : Cfg
  /-- R0 to R14 at 0 to 14; SSP, the R15 of system mode, at 15 (R20, R24). -/
  regs : Vector Word 16
  /-- NSP, the R15 of normal mode (R24, R45). -/
  nsp : Word
  /-- The program counter (R30). -/
  pc : Word
  /-- The flag and control word (R35). -/
  fcw : Fcw
  /-- The Program Status Area pointer; the low byte is always zero (R43). -/
  psap : Word
  /-- The refresh control register (R44). -/
  refresh : Word
  /-- The stores behind PROG, DATA and STACK (R70, R76). -/
  mem : Memory
  /-- The Multi-micro Out latch, `true` = high = released (R51). -/
  mob : Bool
  /-- Set by HALT, cleared by an accepted interrupt or reset (R52). -/
  halted : Bool
  /-- The NMI request latch (R50). -/
  nmiPending : Bool
  /-- RESETF is or was just active, and FCW and PC are not fetched yet (R1100). -/
  resetting : Bool
  /-- The instruction register: the first word of the current instruction (R54). -/
  ir : Word
  /-- The last of the later words fetched for the current instruction, which the CPU holds while it runs (R99, D28). -/
  ir2 : Word
  /-- A repeating block instruction, whose words are `ir` and `ir2`, is between two iterations; PC is its own address
  (R652, D28). -/
  repeating : Bool
  /-- Input: the pin samples of the coming steps (R53). An empty list means no request. -/
  pins : List PinSample
  /-- Input: the levels of MIB at the coming samples (R869). -/
  mib : List Bool
  /-- Input: the data lines of the coming port reads (R91). -/
  portIn : List Word
  /-- Input: the words the EPU gives next (R952). -/
  epuIn : List Word
  /-- Output: the bus transactions made, newest first (R71, R96). -/
  bus : List BusEvent
  /-- The points of a step that a reset abandons, newest first; `none` in every other step (the model's own, log entry
  23). -/
  trace : Option (List Point)
  /-- How many free values have been drawn (the model's own, log entry 42). -/
  freeCount : Nat
  deriving DecidableEq, Repr

/-- FCW right after reset with nothing in memory: `fcw_legal(0)` with `REV = Rev1` (R47, R60). -/
def Fcw.reset : Fcw := ⟨true, false, false, false, false, false, false, false, false, false⟩

/-- The machine right after the reset sequence of R1100 (R60), with nothing in memory, so that the FCW and PC words
it fetches are zero. R0 to R15, NSP and REFRESH bits 14:0 are DESIGN CHOICE 0 (log entry 3). -/
def State.reset : State where
  cfg := Config.defaults
  regs := Vector.replicate 16 0
  nsp := 0
  pc := 0
  fcw := Fcw.reset
  psap := 0
  refresh := 0
  mem := []
  mob := true
  halted := false
  nmiPending := false
  resetting := false
  ir := 0
  ir2 := 0
  repeating := false
  pins := []
  mib := []
  portIn := []
  epuIn := []
  bus := []
  trace := none
  freeCount := 0

end Sys2Proof.Machine
end

