-- ==== Sys2Proof/Machine/Flags.lean ====
section
/-! DEFINITION. Machine/Flags.lean: FCW as a word (spec 10_state.md R35 to R47), condition codes (R130), and the
flag computations of the arithmetic, logical and shift instructions (R300, R400, R500). -/

namespace Sys2Proof.Machine

/-! ### FCW as a word -/

/-- A word with `b` at bit `n` and zeros elsewhere. -/
def bitAt (n : Nat) (b : Bool) : Word := (BitVec.ofNat 16 b.toNat) <<< n

/-- The positions keep the control bits in the high byte and the flags in the low byte, apart from each other and from
the six positions the source gives (R35). -/
def FcwBits.ok (p : FcwBits) : Bool :=
  decide (8 ≤ p.seg.val ∧ p.seg.val ≠ 11 ∧ p.seg.val ≠ 12 ∧ 8 ≤ p.sys.val ∧ p.sys.val ≠ 11 ∧ p.sys.val ≠ 12 ∧
    8 ≤ p.epa.val ∧ p.epa.val ≠ 11 ∧ p.epa.val ≠ 12 ∧ p.d.val < 4 ∧ p.h.val < 4 ∧
    p.seg ≠ p.sys ∧ p.seg ≠ p.epa ∧ p.sys ≠ p.epa ∧ p.d ≠ p.h)

/-- FCW as LDCTL reads it and a trap pushes it: SEG and the unused bits read 0 (R35, R41, R42). -/
def Fcw.toWord (p : FcwBits) (k : Fcw) : Word :=
  bitAt p.seg false ||| bitAt p.sys k.sys ||| bitAt p.epa k.epa ||| bitAt 12 k.vie ||| bitAt 11 k.nvie |||
  bitAt 7 k.c ||| bitAt 6 k.z ||| bitAt 5 k.s ||| bitAt 4 k.v ||| bitAt p.d k.d ||| bitAt p.h k.h

/-- The state that a word written to FCW leaves, before the forcing of Revision 1: unused bits and SEG hold
nothing (R41, R42). -/
def Fcw.ofWord (p : FcwBits) (w : Word) : Fcw where
  sys := w.getLsbD p.sys
  epa := w.getLsbD p.epa
  vie := w.getLsbD 12
  nvie := w.getLsbD 11
  c := w.getLsbD 7
  z := w.getLsbD 6
  s := w.getLsbD 5
  v := w.getLsbD 4
  d := w.getLsbD p.d
  h := w.getLsbD p.h

/-- `fcw_legal` (R47): with `REV = Rev1` SYS is forced to 1 and EPA to 0. -/
def Fcw.legal (cfg : Cfg) (w : Word) : Fcw :=
  match cfg.rev with
  | .rev1 => { Fcw.ofWord cfg.fcwBits w with sys := true, epa := false }
  | .full => Fcw.ofWord cfg.fcwBits w

/-- FCW read as a word. -/
def State.fcwWord (s : State) : Word := s.fcw.toWord s.cfg.fcwBits

/-- FLAGS, the low byte of FCW (R46). -/
def State.flags (s : State) : Byte := loByte s.fcwWord

/-- A write of the flag byte: its bits 7 to 4 and those of D and H are stored, the control byte is unchanged (R867,
R955). -/
def Fcw.withFlags (p : FcwBits) (k : Fcw) (b : Byte) : Fcw :=
  { k with
    c := b.getLsbD 7
    z := b.getLsbD 6
    s := b.getLsbD 5
    v := b.getLsbD 4
    d := b.getLsbD p.d
    h := b.getLsbD p.h }

/-- `cc(c)` (R130). -/
def condHolds (cc : Cond) (k : Fcw) : Bool :=
  match cc with
  | .f => false
  | .lt => k.s ^^ k.v
  | .le => k.z || (k.s ^^ k.v)
  | .ule => k.c || k.z
  | .ov => k.v
  | .mi => k.s
  | .z => k.z
  | .c => k.c
  | .t => true
  | .ge => !(k.s ^^ k.v)
  | .gt => !(k.z || (k.s ^^ k.v))
  | .ugt => !k.c && !k.z
  | .nov => !k.v
  | .pl => !k.s
  | .nz => !k.z
  | .nc => !k.c

/-! ### Addition and subtraction (R300) -/

/-- The result of `add` or `sub` of R300: the value, the carry or borrow of the most significant bit, the overflow,
and the carry or borrow of bit 3. -/
structure Sum (n : Nat) where
  value : BitVec n
  carry : Bool
  overflow : Bool
  half : Bool
  deriving DecidableEq, Repr

/-- `add(N, a, b, cin)` (R300). -/
def addOp {n : Nat} (a b : BitVec n) (cin : Bool) : Sum n :=
  let t := a.toNat + b.toNat + cin.toNat
  let r := BitVec.ofNat n t
  { value := r
    carry := decide (2 ^ n ≤ t)
    overflow := (a.msb == b.msb) && (r.msb != a.msb)
    half := decide (16 ≤ a.toNat % 16 + b.toNat % 16 + cin.toNat) }

/-- `sub(N, a, b, bin)` (R300). -/
def subOp {n : Nat} (a b : BitVec n) (bin : Bool) : Sum n :=
  let t : Int := (a.toNat : Int) - b.toNat - bin.toNat
  let r := BitVec.ofInt n t
  { value := r
    carry := decide (t < 0)
    overflow := (a.msb != b.msb) && (r.msb != a.msb)
    half := decide (((a.toNat % 16 : Nat) : Int) - (b.toNat % 16 : Nat) - bin.toNat < 0) }

/-- `zs(N, r)` (R300): Z is set if the result is zero, S copies its most significant bit. -/
def Fcw.zs {n : Nat} (k : Fcw) (r : BitVec n) : Fcw := { k with z := r == 0, s := r.msb }

/-- The flags C, Z, S, V of an addition, subtraction or compare (R301 to R304, R312, R313). -/
def Fcw.arith {n : Nat} (k : Fcw) (x : Sum n) : Fcw := { k.zs x.value with c := x.carry, v := x.overflow }

/-- The flags of the byte additions and subtractions: also D, which tells which of the two it was, and H (R37). -/
def Fcw.arithByte {n : Nat} (k : Fcw) (x : Sum n) (subtraction : Bool) : Fcw :=
  { k.arith x with d := subtraction, h := x.half }

/-- The flags of INC and DEC: C is unaffected (R306, R309). -/
def Fcw.step {n : Nat} (k : Fcw) (x : Sum n) : Fcw := { k.zs x.value with v := x.overflow }

/-- The flags of NEG: C by `NEG_CARRY` (R311). -/
def Fcw.negate {n : Nat} (k : Fcw) (cfg : Cfg) (x : Sum n) : Fcw :=
  { k.zs x.value with
    c := match cfg.negCarry with
      | .borrow => x.carry
      | .zero => x.value == 0
    v := x.overflow }

/-! ### Logic (R400) -/

/-- `parity_even`: the number of 1 bits of a byte is even (R15). -/
def parityEven (b : Byte) : Bool :=
  !(b.getLsbD 0 ^^ b.getLsbD 1 ^^ b.getLsbD 2 ^^ b.getLsbD 3 ^^ b.getLsbD 4 ^^ b.getLsbD 5 ^^ b.getLsbD 6 ^^ b.getLsbD 7)

/-- `logic_flags(N, r)` (R400): the byte forms also write the parity to V. -/
def Fcw.logic (z : Size) (k : Fcw) (r : BitVec z.bits) : Fcw :=
  match z, r with
  | .b, r => { k.zs r with v := parityEven r }
  | .w, r => k.zs r
  | .l, r => k.zs r

/-! ### Shifts and rotates (R500) -/

/-- The destination and the carry flag between two one-bit steps. -/
structure Shifting (n : Nat) where
  x : BitVec n
  c : Bool
  deriving DecidableEq, Repr

def shlStep {n : Nat} (t : Shifting n) : Shifting n := ⟨t.x <<< 1, t.x.msb⟩
def sarStep {n : Nat} (t : Shifting n) : Shifting n := ⟨t.x.sshiftRight 1, t.x.getLsbD 0⟩
def shrStep {n : Nat} (t : Shifting n) : Shifting n := ⟨t.x >>> 1, t.x.getLsbD 0⟩
def rlStep {n : Nat} (t : Shifting n) : Shifting n := ⟨(t.x <<< 1) ||| BitVec.ofNat n t.x.msb.toNat, t.x.msb⟩
def rlcStep {n : Nat} (t : Shifting n) : Shifting n := ⟨(t.x <<< 1) ||| BitVec.ofNat n t.c.toNat, t.x.msb⟩
def rrStep {n : Nat} (t : Shifting n) : Shifting n :=
  ⟨(t.x >>> 1) ||| (BitVec.ofNat n (t.x.getLsbD 0).toNat <<< (n - 1)), t.x.getLsbD 0⟩
def rrcStep {n : Nat} (t : Shifting n) : Shifting n :=
  ⟨(t.x >>> 1) ||| (BitVec.ofNat n t.c.toNat <<< (n - 1)), t.x.getLsbD 0⟩

/-- `run(step, x0, k)` (R500): `k` steps; the second component tells whether the sign differed from `sign`, the
original one, after any of them. -/
def runSteps {n : Nat} (step : Shifting n → Shifting n) (sign : Bool) : Nat → Shifting n → Shifting n × Bool
  | 0, t => (t, false)
  | k + 1, t =>
    let u := step t
    let (w, ovf) := runSteps step sign k u
    (w, (u.x.msb != sign) || ovf)

/-- `ovf` under `SHIFT_V_RULE` (R500): any step, or the last value alone. -/
def shiftOverflow {n : Nat} (rule : ShiftV) (sign : Bool) (w : Shifting n) (anyStep : Bool) : Bool :=
  match rule with
  | .anyStep => anyStep
  | .final => w.x.msb != sign

/-- A run of `k` steps on the value `x` with the carry of `f`: the value and the flags by `sr_flags` (R500). -/
def shiftBy {n : Nat} (step : Shifting n → Shifting n) (rule : ShiftV) (k : Nat) (x : BitVec n) (f : Fcw) :
    BitVec n × Fcw :=
  let (w, anyStep) := runSteps step x.msb k ⟨x, f.c⟩
  (w.x, { f.zs w.x with c := w.c, v := shiftOverflow rule x.msb w anyStep })

/-- The shifts reach their final value after at most `n + 1` steps (R507), so a larger count is cut down to that. -/
def shiftCount (n k : Nat) : Nat := min k (n + 1)

/-- A shift by zero positions: the value is unchanged, V is 0; C is cleared when `clearsC` (R510, R520). -/
def shiftZero {n : Nat} (clearsC : Bool) (x : BitVec n) (f : Fcw) : BitVec n × Fcw :=
  (x, { f.zs x with c := if clearsC then false else f.c, v := false })

end Sys2Proof.Machine
end

