-- ==== Sys2Proof/Machine/Ops.lean ====
section
/-! DEFINITION. Machine/Ops.lean: the named operations over registers, memory, the bus and the environment's inputs
(spec 10_state.md, 20_memory.md), and taking and leaving an exception (60_exceptions.md R1010, R1016) and reset
(70_reset_and_hazards.md R1100). -/

namespace Sys2Proof.Machine

/-! ### Computations that can stop -/

/-- A fault or a refusal. -/
inductive Stop where
  | fault (r : Fault)
  | refuse (r : Refusal)
  deriving DecidableEq, Repr

/-- A value, or a stop. -/
abbrev Comp (α : Type) := Except Stop α

/-- The outcome a computation of the next state stands for. -/
def answer (x : Comp State) : Host.Outcome State Fault Refusal :=
  match x with
  | .ok s => .next s
  | .error (.fault r) => .fault r
  | .error (.refuse r) => .refused r

/-- Goes on when `b` holds, else refuses with `r`. -/
def require (b : Bool) (r : Refusal) : Comp Unit := if b then .ok () else .error (.refuse r)

/-! ### Plain updates -/

def State.setFcw (s : State) (k : Fcw) : State := { s with fcw := k }
def State.setPc (s : State) (a : Word) : State := { s with pc := a }
def State.bumpFree (s : State) : State := { s with freeCount := s.freeCount + 1 }

/-- What a point of the step shows (log entry 23). -/
def State.point (odd : Option Word) (s : State) : Point := ⟨s.regs, s.nsp, s.refresh, s.mib, s.bus.length, odd⟩

/-- The step comes to a point; only a step that a reset abandons keeps its points. -/
def State.mark (s : State) (p : Point) : State := { s with trace := s.trace.map fun ps => p :: ps }

/-- A bus transaction, recorded; `odd` is the odd address a word access was asked for. -/
def State.access (s : State) (odd : Option Word) (e : BusEvent) : State :=
  State.mark { s with bus := e :: s.bus } (State.point odd { s with bus := e :: s.bus })

/-- A bus transaction, recorded. -/
def State.note (s : State) (e : BusEvent) : State := s.access none e

/-! ### Registers (R20 to R25) -/

/-- `R[c]`, with R15 naming SSP in system mode and NSP in normal mode (R24). -/
def State.word (s : State) (c : Reg) : Word :=
  if c = 15 && !s.fcw.sys then s.nsp else s.regs[c.toNat]'(c.isLt)

/-- `R[c] <- v` (R24). -/
def State.setWord (s : State) (c : Reg) (v : Word) : State :=
  if c = 15 && !s.fcw.sys then { s with nsp := v } else { s with regs := s.regs.set c.toNat v (c.isLt) }

/-- The word register that holds the byte register `c` (R13, R21). -/
def byteHome (c : Reg) : Reg := c &&& 7

/-- `RB[c]`: codes 0 to 7 are the high bytes, 8 to 15 the low bytes (R13; PRESUMED halves, log entry 2). -/
def State.byte (s : State) (c : Reg) : Byte :=
  if c.msb then loByte (s.word (byteHome c)) else hiByte (s.word (byteHome c))

/-- `RB[c] <- v`; the other half of the word register is unchanged (R21). -/
def State.setByte (s : State) (c : Reg) (v : Byte) : State :=
  let w := s.word (byteHome c)
  s.setWord (byteHome c) (if c.msb then hiByte w ++ v else v ++ loByte w)

/-- `{R[c], R[c+1]}` (R22; PRESUMED order, log entry 2). -/
def State.long (s : State) (c : Reg) : Long := s.word c ++ s.word (c + 1)

def State.setLong (s : State) (c : Reg) (v : Long) : State :=
  (s.setWord c (v.extractLsb' 16 16)).setWord (c + 1) (v.extractLsb' 0 16)

/-- `{R[c], .., R[c+3]}` (R23). -/
def State.quad (s : State) (c : Reg) : Quad := s.long c ++ s.long (c + 2)

def State.setQuad (s : State) (c : Reg) (v : Quad) : State :=
  (s.setLong c (v.extractLsb' 32 32)).setLong (c + 2) (v.extractLsb' 0 32)

/-- The instruction holds intermediate results in the registers `cs`: what a reset here would find in them is free (R1100,
log entry 23). -/
def State.intermediate (cs : List Reg) (s : State) : State :=
  s.mark ((cs.foldl (fun u c => u.setWord c (Config.intermediateWord s.freeCount c.toNat)) s).point none)

/-- An odd code names no pair (R116). -/
def pairOk (c : Reg) : Bool := !c.getLsbD 0
/-- Only 0, 4, 8 and 12 name a quadruple (R116). -/
def quadOk (c : Reg) : Bool := !c.getLsbD 0 && !c.getLsbD 1

/-- `Reg(N, c)` (R142). -/
def readReg : (z : Size) → Reg → State → Comp (BitVec z.bits)
  | .b, c, s => .ok (s.byte c)
  | .w, c, s => .ok (s.word c)
  | .l, c, s => if pairOk c then .ok (s.long c) else .error (.refuse (.illegalPair c))

/-- `Reg(N, c) <- v` (R142). -/
def writeReg : (z : Size) → Reg → BitVec z.bits → State → Comp State
  | .b, c, v, s => .ok (s.setByte c v)
  | .w, c, v, s => .ok (s.setWord c v)
  | .l, c, v, s => if pairOk c then .ok (s.setLong c v) else .error (.refuse (.illegalPair c))

/-- `Reg(8, c)` (R142). -/
def readQuad (c : Reg) (s : State) : Comp Quad :=
  if quadOk c then .ok (s.quad c) else .error (.refuse (.illegalQuad c))

def writeQuad (c : Reg) (v : Quad) (s : State) : Comp State :=
  if quadOk c then .ok (s.setQuad c v) else .error (.refuse (.illegalQuad c))

/-! ### Memory (R76 to R84) -/

/-- The byte a store holds under a key. -/
def Memory.read : Memory → Nat → Byte
  | [], _ => Config.blankByte
  | (k, b) :: m, a => if k = a then b else Memory.read m a

/-- Puts a byte in front of the first greater key. -/
def Memory.insert : Memory → Nat → Byte → Memory
  | [], a, v => [(a, v)]
  | (k, b) :: m, a, v => if a < k then (a, v) :: (k, b) :: m else (k, b) :: Memory.insert m a v

/-- Drops what a store lists under a key. -/
def Memory.erase (m : Memory) (a : Nat) : Memory := m.filter fun x => x.1 != a

/-- Stores a byte; writing what an unlisted key reads as removes the entry. -/
def Memory.write (m : Memory) (a : Nat) (v : Byte) : Memory :=
  if v = Config.blankByte then Memory.erase m a else Memory.insert (Memory.erase m a) a v

/-- The canonical form: keys rise strictly and no entry equals what an unlisted key reads as. -/
def Memory.wf : Memory → Bool
  | [] => true
  | [(_, b)] => b != Config.blankByte
  | (k, b) :: (k', b') :: m => b != Config.blankByte && decide (k < k') && Memory.wf ((k', b') :: m)

/-- `SPACE_MAP` (R76). -/
def SpaceMap.place (m : SpaceMap) (sp : Space) (sys : Bool) : Place :=
  match sp, sys with
  | .prog, true => m.progSys
  | .data, true => m.dataSys
  | .stack, true => m.stackSys
  | .prog, false => m.progNormal
  | .data, false => m.dataNormal
  | .stack, false => m.stackNormal

/-- The key of the byte at address `a` of a space in a mode (R74, R76). DESIGN CHOICE (log entry 45): a store has 2^16
bytes, and address and offset are added modulo 2^16; the spec settles neither for a `SPACE_MAP` other than the default. -/
def Cfg.key (c : Cfg) (sp : Space) (sys : Bool) (a : Word) : Nat :=
  let p := SpaceMap.place c.spaceMap sp sys
  p.store.val * 65536 + (a + p.offset).toNat

/-- The key of the byte at address `a` of a space in the current mode (R74, R76; the size of a store and the wrap of the
offset are DESIGN CHOICE, log entry 45). -/
def State.key (s : State) (sp : Space) (a : Word) : Nat := Cfg.key s.cfg sp s.fcw.sys a

/-- The byte at address `a` of a space: `M[a]` of R80, without any effect. -/
def State.peek (s : State) (sp : Space) (a : Word) : Byte := Memory.read s.mem (s.key sp a)

/-- The word `{M[a], M[a+1]}` (R78, R81). -/
def State.peekWord (s : State) (sp : Space) (a : Word) : Word := s.peek sp a ++ s.peek sp (a + 1)

/-- Stores one byte (R83). -/
def State.poke (s : State) (sp : Space) (a : Word) (v : Byte) : State :=
  { s with mem := Memory.write s.mem (s.key sp a) v }

/-- Stores `v[15:8]` at `a` and `v[7:0]` at `a + 1` (R83). -/
def State.pokeWord (s : State) (sp : Space) (a : Word) (v : Word) : State :=
  (s.poke sp a (hiByte v)).poke sp (a + 1) (loByte v)

/-- The status code of an ordinary data transaction (R71). -/
def Space.status : Space → Status
  | .prog => .program
  | .data => .data
  | .stack => .stack

/-- The status code of an EPU transfer to or from memory (R71). -/
def Space.epuStatus : Space → Status
  | .prog => .program
  | .data => .epuData
  | .stack => .epuStack

/-- ST[3:0] (R71). -/
def Status.code : Status → BitVec 4
  | .internal => 0b0000
  | .refresh => 0b0001
  | .standardIo => 0b0010
  | .specialIo => 0b0011
  | .nmiAck => 0b0101
  | .nviAck => 0b0110
  | .viAck => 0b0111
  | .data => 0b1000
  | .stack => 0b1001
  | .epuData => 0b1010
  | .epuStack => 0b1011
  | .program => 0b1100
  | .firstWord => 0b1101
  | .epuCpu => 0b1110

/-- The address with bit 0 forced to 0. -/
def evenAddress (a : Word) : Word := a &&& 0xFFFE

/-- The address an access to `a` that needs an even one uses, or the stop `why` (R86, R87). -/
def alignBy (policy : OddPolicy) (why : Word → Fault) (a : Word) : Comp Word :=
  if a.getLsbD 0 then
    match policy with
    | .refuse => .error (.fault (why a))
    | .ignoreA0 => .ok (evenAddress a)
  else .ok a

/-- The address, if it is odd. -/
def oddPart (a : Word) : Option Word := if a.getLsbD 0 then some a else none

/-- The word access rule `MISALIGNED` (R86). -/
def State.align (s : State) (a : Word) : Comp Word := alignBy s.cfg.misaligned .misaligned a

/-- `MemRead(sp:a, 2)` as one transaction with status `st` (R81). -/
def readWordAs (st : Status) (sp : Space) (a : Word) (s : State) : Comp (Word × State) := do
  let e ← s.align a
  let v := s.peekWord sp e
  return (v, s.access (oddPart a) (.transfer st s.fcw.sys true false e v))

/-- `MemWrite(sp:a, 2, v)` as one transaction with status `st` (R83). -/
def writeWordAs (st : Status) (sp : Space) (a : Word) (v : Word) (s : State) : Comp State := do
  let e ← s.align a
  return (s.pokeWord sp e v).access (oddPart a) (.transfer st s.fcw.sys false false e v)

/-- `MemRead(sp:a, N)` (R80 to R82): a byte read shows the whole word on the data lines; a long is two words, the
lower address first. -/
def load : (z : Size) → Space → Word → State → Comp (BitVec z.bits × State)
  | .b, sp, a, s =>
    .ok (s.peek sp a, s.note (.transfer sp.status s.fcw.sys true true a (s.peekWord sp (evenAddress a))))
  | .w, sp, a, s => readWordAs sp.status sp a s
  | .l, sp, a, s => do
    let (h, s) ← readWordAs sp.status sp a s
    let (l, s) ← readWordAs sp.status sp (a + 2) s
    return (h ++ l, s)

/-- `MemWrite(sp:a, N, v)` (R83): a byte stands on both halves of the data lines. -/
def store : (z : Size) → Space → Word → BitVec z.bits → State → Comp State
  | .b, sp, a, v, s => .ok ((s.poke sp a v).note (.transfer sp.status s.fcw.sys false true a (v ++ v)))
  | .w, sp, a, v, s => writeWordAs sp.status sp a v s
  | .l, sp, a, v, s => do
    let s ← writeWordAs sp.status sp a (v.extractLsb' 16 16) s
    writeWordAs sp.status sp (a + 2) (v.extractLsb' 0 16) s

/-- A read of the word that contains `a` whose data is dropped, as a transaction with status `st`, exempt from the
alignment rule (R90). DESIGN CHOICE (log entry 28): the width and the even address. -/
def discardReadAs (st : Status) (sp : Space) (a : Word) (s : State) : State :=
  s.note (.transfer st s.fcw.sys true false (evenAddress a) (s.peekWord sp (evenAddress a)))

/-- `DiscardRead(sp:a)` of an instruction (R90). -/
def discardRead (sp : Space) (a : Word) (s : State) : State := discardReadAs sp.status sp a s

/-- `dsp(r)` (R73). -/
def dsp (r : Reg) : Space := if r = 15 then .stack else .data

/-- `push(v)` on the stack pointer in use (R14). -/
def push (v : Word) (s : State) : Comp State :=
  let a := s.word 15 - 2
  store .w .stack a v (s.setWord 15 a)

/-- `pop()` (R14). -/
def pop (s : State) : Comp (Word × State) := do
  let (v, s) ← load .w .stack (s.word 15) s
  return (v, s.setWord 15 (s.word 15 + 2))

/-! ### Instruction fetch (R14, R31, R87) -/

/-- `Fetch()` with the status of a first word or of a later word (R71): the word at PC, then PC <- PC + 2. -/
def fetch (st : Status) (s : State) : Comp (Word × State) := do
  let a ← alignBy s.cfg.oddPc .oddFetch s.pc
  let w := s.peekWord .prog a
  return (w, (s.note (.transfer st s.fcw.sys true false a w)).setPc (s.pc + 2))

/-! ### The environment's inputs (R53) -/

/-- The pins of this step; an empty list means no request, and then the identifier that the acknowledge of a latched
NMI reads is a free value (R1011, U16, log entry 21). -/
def takePins (s : State) : PinSample × State :=
  match s.pins with
  | [] => (⟨.released, false, false, false, Config.ackIdent s.freeCount⟩, s)
  | p :: ps => (p, { s with pins := ps })

/-- One sample of MIB (R869); a free value when the list is empty (log entry 19). -/
def takeMib (s : State) : Bool × State :=
  match s.mib with
  | [] => (Config.mibLevel s.freeCount, s.bumpFree)
  | b :: bs => (b, { s with mib := bs })

/-- The data lines of one port read (R91); a free value when the list is empty (log entry 18). -/
def takePort (s : State) : Word × State :=
  match s.portIn with
  | [] => (Config.portData s.freeCount, s.bumpFree)
  | w :: ws => (w, { s with portIn := ws })

/-- `EpuGive()` (R952); a free value when the list is empty (log entry 20). -/
def takeEpu (s : State) : Word × State :=
  match s.epuIn with
  | [] => (Config.epuData s.freeCount, s.bumpFree)
  | w :: ws => (w, { s with epuIn := ws })

/-- The status code of a port transaction (R71). -/
def IoSpace.status : IoSpace → Status
  | .standard => .standardIo
  | .special => .specialIo

/-- A port access is a byte or a word access (R91). -/
def portByte (z : Size) : Bool := z == .b

/-- `IoRead(sp:p, N)` for bytes and words (R91): a byte port reads the upper half of the lines at an even address,
the lower half at an odd one; a word port may be odd. (A long port access does not exist.) -/
def ioRead (z : Size) (sp : IoSpace) (p : Word) (s : State) : BitVec z.bits × State :=
  let (lines, t) := takePort s
  let t := t.note (.transfer sp.status s.fcw.sys true (portByte z) p lines)
  match z with
  | .b => (if p.getLsbD 0 then loByte lines else hiByte lines, t)
  | .w => (lines, t)
  | .l => (lines ++ lines, t)

/-- `IoWrite(sp:p, N, v)` (R91, R83): a byte stands on both halves of the data lines. -/
def ioWrite (z : Size) (sp : IoSpace) (p : Word) (v : BitVec z.bits) (s : State) : State :=
  match z, v with
  | .b, v => s.note (.transfer sp.status s.fcw.sys false true p (v ++ v))
  | .w, v => s.note (.transfer sp.status s.fcw.sys false false p v)
  | .l, _ => s

/-! ### Taking an exception and returning from one -/

/-- The events of R1000. -/
inductive Event where
  | extended | privileged | systemCall | nmi | nvi | vi
  deriving DecidableEq, Repr

/-- The offset of the event's FCW word in the Program Status Area (R1000, R1013). -/
def Event.fcwOffset : Event → Word
  | .extended => 0x04
  | .privileged => 0x08
  | .systemCall => 0x0C
  | .nmi => 0x14
  | .nvi => 0x18
  | .vi => 0x1C

/-- The offset of the event's PC word; for a vectored interrupt the low byte of the identifier selects it (R1000). -/
def Event.pcOffset (e : Event) (ident : Word) : Word :=
  match e with
  | .extended => 0x06
  | .privileged => 0x0A
  | .systemCall => 0x0E
  | .nmi => 0x16
  | .nvi => 0x1A
  | .vi => 0x1E + 2 * (ident &&& 0xFF)

/-- PSA: `{PSAP[15:8], 0x00}` (R1000). -/
def State.psa (s : State) : Word := hiByte s.psap ++ 0#8

/-- Loads FCW from `PROG:f`, then PC from `PROG:p` (R1014, R1100). -/
def loadStatus (f p : Word) (s : State) : Comp State := do
  let (w, s) ← load .w .prog f s
  let (a, s) ← load .w .prog p s
  return (s.setFcw (Fcw.legal s.cfg w)).setPc a

/-- Steps 2 and 3 of the entry sequence of R1010: in system mode push the saved PC, the old FCW and the identifier on
the system stack, then load the new FCW and PC from the Program Status Area. -/
def enter (e : Event) (savedPc ident : Word) (s : State) : Comp State := do
  let old := s.fcwWord
  let s := s.setFcw { s.fcw with sys := true }
  let s ← push savedPc s
  let s ← push old s
  let s ← push ident s
  loadStatus (s.psa + e.fcwOffset) (s.psa + e.pcOffset ident) s

/-- The return of IRET (R857, R1016): drop the identifier, pop FCW, then PC, with the stack pointer in use, which is SSP
in system mode. DESIGN CHOICE (log entry 46): with a `PRIV_SET` that leaves IRET out it can run with SYS = 0, and it then
uses R15 of that mode, NSP; the spec does not say which pointer that is. -/
def leave (s : State) : Comp State := do
  let s := s.setWord 15 (s.word 15 + 2)
  let (w, s) ← pop s
  let (a, s) ← pop s
  return (s.setFcw (Fcw.legal s.cfg w)).setPc a

/-- Status codes of the acknowledge transactions (R71, R1000). -/
def Event.ackStatus : Event → Status
  | .nmi => .nmiAck
  | .nvi => .nviAck
  | .vi => .viAck
  | _ => .internal

/-- The entry of an interrupt (R1010): the aborted IF1 at PC with the status of a first word (R71), the acknowledge that
reads the identifier, then the entry sequence with the PC of the next instruction, or of the block instruction that has
not ended (R1012). NMI clears its latch; HALT and the repetition of a block instruction end. Every acknowledge counts as
a draw of a free value (log entry 42). -/
def interrupt (e : Event) (ident : Word) (s : State) : Comp State :=
  let s := discardReadAs .firstWord .prog s.pc s
  let s := s.note (.transfer e.ackStatus s.fcw.sys true false 0 ident)
  let s := { s with
    nmiPending := if e = .nmi then false else s.nmiPending
    halted := false
    repeating := false
    freeCount := s.freeCount + 1 }
  enter e s.pc ident s

/-- The first of NMI, VI and NVI that is requested and enabled (R1008, R1009). -/
def accepted (p : PinSample) (s : State) : Option Event :=
  if s.nmiPending then some .nmi
  else if p.vi && s.fcw.vie then some .vi
  else if p.nvi && s.fcw.nvie then some .nvi
  else none

/-! ### Reset (R1100) -/

/-- The row counter of REFRESH runs: `REV = Full` and REN = 1 (R44). -/
def State.rowRuns (s : State) : Bool := s.cfg.rev == .full && s.refresh.getLsbD 15

/-- REFRESH after a reset: REN is cleared and bits 14:0 keep their values (R1100). DESIGN CHOICE (log entry 17): the spec
does not say what the Row field of a counter that ran then holds; it is `row`, a free value in `resetState`. -/
def State.refreshKept (row : BitVec 9) (s : State) : Word :=
  if s.rowRuns then (s.refresh &&& 0x7E00) ||| row.setWidth 16 else s.refresh &&& 0x7FFF

/-- RESETF active (R1100, R1102, R1103): the general registers, NSP and REFRESH bits 14:0 keep their values (but for the Row
field of a counter that ran, log entry 17), nothing executes, and the CPU is in system mode for the fetches that follow. -/
def resetState (s : State) : State :=
  { s with
    psap := 0
    refresh := s.refreshKept (Config.refreshRow s.freeCount)
    freeCount := s.freeCount + s.rowRuns.toNat
    mob := true
    halted := false
    nmiPending := false
    resetting := true
    ir := 0
    ir2 := 0
    repeating := false
    fcw := { s.fcw with sys := true } }

/-- The reset sequence (R1100): when RESETF is inactive again FCW and PC are fetched from PROG 0x0002 and 0x0004. -/
def resetSequence (s : State) : Comp State :=
  loadStatus 0x0002 0x0004 { resetState s with resetting := false }

/-- The memory space a bus transaction addresses (R71). -/
def Status.space : Status → Option Space
  | .data => some .data
  | .stack => some .stack
  | .epuData => some .data
  | .epuStack => some .stack
  | .program => some .prog
  | .firstWord => some .prog
  | _ => none

/-- What one recorded transaction does to memory: a write stores the byte or the word on the data lines (R83). -/
def applyWrite (c : Cfg) (m : Memory) (e : BusEvent) : Memory :=
  match e with
  | .transfer st sys false byte a v =>
    match st.space with
    | none => m
    | some sp =>
      if byte then Memory.write m (Cfg.key c sp sys a) (loByte v)
      else Memory.write (Memory.write m (Cfg.key c sp sys a) (hiByte v)) (Cfg.key c sp sys (a + 1)) (loByte v)
  | _ => m

/-- A transaction that took a word from a port. -/
def isPortRead : BusEvent → Bool
  | .transfer .standardIo _ true _ _ _ => true
  | .transfer .specialIo _ true _ _ _ => true
  | _ => false

/-- A transaction that took a word from the EPU: it drives the lines when CPU or memory are written (R953, R955). -/
def isEpuGive : BusEvent → Bool
  | .transfer .epuCpu _ true _ _ _ => true
  | .transfer .epuData _ false _ _ _ => true
  | .transfer .epuStack _ false _ _ _ => true
  | _ => false

/-- The first `k` transactions of a step from `s` to `t`, oldest first. -/
def transactions (k : Nat) (s t : State) : List BusEvent :=
  ((t.bus.take (t.bus.length - s.bus.length)).reverse).take k

/-- A byte of a register between two points: its value, if it has the same at both; else a free value, for it may or may
not have been written (R1100, D12, log entry 23). -/
def keptByte (free before after : Byte) : Byte := if before = after then before else free

/-- A register between two points, byte by byte (R21). -/
def keptOrFree (n c : Nat) (before after : Word) : Word :=
  keptByte (hiByte (Config.abandonedWord n c)) (hiByte before) (hiByte after) ++
    keptByte (loByte (Config.abandonedWord n c)) (loByte before) (loByte after)

/-- The points a step came to before it ended in `t`, oldest first. -/
def State.points (t : State) : List Point := (t.trace.getD []).reverse

/-- The point a step from `s` to `t` is at after its first `k` points, and the one that comes next. -/
def around (k : Nat) (s t : State) : Point × Point :=
  ((s.point none :: t.points).getD (min k t.points.length) (s.point none),
   (t.points ++ [t.point none]).getD (min k t.points.length) (t.point none))

/-- The first odd address among the first `k` points of a step that ends in `t`. -/
def oddBefore (k : Nat) (t : State) : Option Word := (t.points.take k).findSome? Point.odd

/-- What a step from `s` leaves when it is abandoned between two of its points with the transactions `done` made: the
registers of the point before, but for the bytes that change before the point after, and what the transactions did. -/
def leftBetween (now next : Point) (done : List BusEvent) (free : Nat) (s : State) : State :=
  { s with
    regs := Vector.ofFn fun c : Fin 16 => keptOrFree free c.val now.regs[c] next.regs[c]
    nsp := keptOrFree free 16 now.nsp next.nsp
    refresh := keptOrFree free 17 now.refresh next.refresh
    mem := done.foldl (applyWrite s.cfg) s.mem
    bus := done.reverse ++ s.bus
    mib := now.mib
    portIn := s.portIn.drop (done.countP isPortRead)
    epuIn := s.epuIn.drop (done.countP isEpuGive)
    freeCount := free + 1 }

/-- A step from `s` that would end in `t`, abandoned after its first `k` points (R1100, D12): what was written by then
stays written, in memory and in the registers; the inputs taken by then are gone; a byte of a register that changes
before the next point may or may not have been written. -/
def abandoned (k : Nat) (s t : State) : State :=
  leftBetween (around k s t).1 (around k s t).2 (transactions ((around k s t).1.made - s.bus.length) s t) t.freeCount s

/-! ### Guards of the privileged and extended instructions -/

/-- The word is in a set of patterns. -/
def Pattern.covers (p : Pattern) (w : Word) : Bool := w &&& p.mask == p.bits

/-- `PRIV_SET` on the first word of an instruction (R1030, R1041; its rows beyond I/O are PRESUMED, log entry 30). -/
def privilegedWord (p : PrivSet) (w : Word) : Bool := p.any fun x => Pattern.covers x w

/-- The first word of an instruction. -/
def firstWordOf (i : Instr) : Word := (encode i).headD 0

/-- The address after the first word of an instruction of `words` words whose end is at PC (R1012). -/
def State.afterFirst (s : State) (words : Word) : Word := s.pc - 2 * (words - 1)

/-- The instruction `i`, when `PRIV_SET` names its first word: in normal mode it raises the Privileged Instruction Trap,
with nothing of its own done (R1030); otherwise `body` runs. -/
def privileged (i : Instr) (words : Word) (body : State → Comp State) (s : State) : Comp State :=
  if !s.fcw.sys && privilegedWord s.cfg.privSet (firstWordOf i) then enter .privileged (s.afterFirst words) s.ir s
  else body s

/-- An extended instruction: with `REV = Rev1` it raises the SC and Unimplemented Instruction Trap (R950), with
EPA = 0 the Extended Instruction Trap (R951); otherwise `body` runs (R959). -/
def extended (words : Word) (body : State → Comp State) (s : State) : Comp State :=
  if s.cfg.rev = .rev1 then enter .systemCall (s.afterFirst words) s.ir s
  else if !s.fcw.epa then enter .extended (s.afterFirst words) s.ir s
  else body s

end Sys2Proof.Machine
end

