-- ==== Sys2Proof/Machine/Operands.lean ====
section
/-! DEFINITION. Machine/Operands.lean: effective addresses and operands (spec 30_encoding.md R140 to R143), the
shapes most instructions share, and the register restrictions of R1126. -/

namespace Sys2Proof.Machine

/-! ### Effective addresses (R143) -/

/-- `EA` in the modes IR, DA and X (R73, R140): X and DA always use the Data space. -/
def memEA (m : Mem) (s : State) : Space × Word :=
  match m with
  | .ind r => (dsp r, s.word r)
  | .da address => (.data, address)
  | .x address r => (.data, address + s.word r)

/-- `EA` of a load or store: also BA and BX, whose base register selects the space (R73). -/
def ldEA (m : LdMem) (s : State) : Space × Word :=
  match m with
  | .std m => memEA m s
  | .ba r disp => (dsp r, s.word r + disp)
  | .bx r i => (dsp r, s.word r + s.word i)

/-- `EA` of LDA (R206). -/
def addrEA (m : AddrForm) (s : State) : Space × Word :=
  match m with
  | .da address => (.data, address)
  | .x address r => (.data, address + s.word r)
  | .ba r disp => (dsp r, s.word r + disp)
  | .bx r i => (dsp r, s.word r + s.word i)

/-- `EA(RA)`: the displacement is added to the PC of the next instruction (R120, R143). -/
def relEA (disp : Word) (s : State) : Word := s.pc + disp

/-! ### Operands -/

/-- Reads a source in R, IM, IR, DA or X. -/
def readSrc (z : Size) (src : Src z) (s : State) : Comp (BitVec z.bits × State) :=
  match src with
  | .reg c => do
    let v ← readReg z c s
    return (v, s)
  | .imm v => .ok (v, s)
  | .mem m => load z (memEA m s).1 (memEA m s).2 s

/-- Reads an operand in R, IR, DA or X. -/
def readDst (z : Size) (d : Dst) (s : State) : Comp (BitVec z.bits × State) :=
  match d with
  | .reg c => do
    let v ← readReg z c s
    return (v, s)
  | .mem m => load z (memEA m s).1 (memEA m s).2 s

/-- Writes an operand in R, IR, DA or X. -/
def writeDst (z : Size) (d : Dst) (v : BitVec z.bits) (s : State) : Comp State :=
  match d with
  | .reg c => writeReg z c v s
  | .mem m => store z (memEA m s).1 (memEA m s).2 v s

/-! ### Shared shapes -/

/-- A value and the flags computed from an operand. -/
abbrev Unary (z : Size) := BitVec z.bits → Fcw → BitVec z.bits × Fcw
/-- A value and the flags computed from the destination and the source. -/
abbrev Binary (z : Size) := BitVec z.bits → BitVec z.bits → Fcw → BitVec z.bits × Fcw

/-- Read the operand, compute, write it back to the same place, set the flags. -/
def modify (z : Size) (d : Dst) (f : Unary z) (s : State) : Comp State := do
  let (v, s) ← readDst z d s
  let (r, k) := f v s.fcw
  let s ← writeDst z d r s
  return s.setFcw k

/-- Read the operand and set the flags. -/
def inspect (z : Size) (d : Dst) (f : BitVec z.bits → Fcw → Fcw) (s : State) : Comp State := do
  let (v, s) ← readDst z d s
  return s.setFcw (f v s.fcw)

/-- Read the source and the destination register, compute, write the register, set the flags. -/
def binary (z : Size) (d : Reg) (src : Src z) (f : Binary z) (s : State) : Comp State := do
  let (b, s) ← readSrc z src s
  let a ← readReg z d s
  let (r, k) := f a b s.fcw
  let s ← writeReg z d r s
  return s.setFcw k

/-- Read the source and the destination register and set the flags. -/
def compare (z : Size) (d : Reg) (src : Src z) (f : BitVec z.bits → BitVec z.bits → Fcw → Fcw) (s : State) :
    Comp State := do
  let (b, s) ← readSrc z src s
  let a ← readReg z d s
  return s.setFcw (f a b s.fcw)

/-- A register computed from itself and the flags. -/
def modifyReg (z : Size) (d : Reg) (f : Unary z) (s : State) : Comp State := do
  let v ← readReg z d s
  let (r, k) := f v s.fcw
  let s ← writeReg z d r s
  return s.setFcw k

/-! ### Register restrictions (R1126, D20) -/

/-- The address or index register of a memory operand is not `r`. -/
def memAvoids (r : Reg) : Mem → Bool
  | .ind s => s != r
  | .da _ => true
  | .x _ s => s != r

/-- POP: the destination register, a register of the destination pair, or the destination's address register is not
the stack pointer register (R213). -/
def popSeparate (z : Size) (sp : Reg) : Dst → Bool
  | .reg c => c != sp && (z != .l || c + 1 != sp)
  | .mem m => memAvoids sp m

/-- MULT and DIV: a register source is not inside the destination pair (R307, R310). -/
def srcOutsidePair (d : Reg) : Src .w → Bool
  | .reg c => c != d && c != d + 1
  | .imm _ => true
  | .mem _ => true

/-- MULTL and DIVL: a register pair source is not inside the destination quadruple. -/
def srcOutsideQuad (d : Reg) : Src .l → Bool
  | .reg c => c != d && c != d + 2
  | .imm _ => true
  | .mem _ => true

/-- Three separate word registers (R651). -/
def separate (a b c : Reg) : Bool := a != b && a != c && b != c

/-- The condition nibbles with a meaning in a block load (R700). -/
def blockLoadCondition (cc : Cond) : Bool :=
  match cc with
  | .f | .t | .mi | .pl | .c | .nc => true
  | _ => false

/-- The condition nibbles with a meaning in a block input or output (R700). -/
def blockIoCondition (cc : Cond) : Bool :=
  match cc with
  | .f | .t | .mi | .pl | .c | .nc | .ule | .ugt | .z | .nz => true
  | _ => false

end Sys2Proof.Machine
end

