-- ==== Sys2Proof/Machine/Arith.lean ====
section
/-! DEFINITION. Machine/Arith.lean: ADC, ADD, CP, DAB, DEC, DIV, EXTS, INC, MULT, NEG, SBC and SUB (spec
41_arithmetic.md). Division by zero and overflow are reported in flags only. -/

namespace Sys2Proof.Machine

/-! ### Shared operations -/

/-- ADD and ADC of words and long words: D and H unaffected (R301, R302). -/
def addWith {n : Nat} (carry : Bool) (a b : BitVec n) (k : Fcw) : BitVec n × Fcw :=
  let x := addOp a b (carry && k.c)
  (x.value, k.arith x)

/-- ADDB and ADCB: D cleared, H the carry from bit 3 (R301, R302). -/
def addByteWith (carry : Bool) (a b : Byte) (k : Fcw) : Byte × Fcw :=
  let x := addOp a b (carry && k.c)
  (x.value, k.arithByte x false)

/-- SUB and SBC of words and long words (R312, R313). -/
def subWith {n : Nat} (carry : Bool) (a b : BitVec n) (k : Fcw) : BitVec n × Fcw :=
  let x := subOp a b (carry && k.c)
  (x.value, k.arith x)

/-- SUBB and SBCB: D set, H the borrow from bit 3 (R312, R313). -/
def subByteWith (carry : Bool) (a b : Byte) (k : Fcw) : Byte × Fcw :=
  let x := subOp a b (carry && k.c)
  (x.value, k.arithByte x true)

/-- The flags of a compare: those of the subtraction, D and H unaffected also for bytes (R303, R304). -/
def compareFlags {n : Nat} (a b : BitVec n) (k : Fcw) : Fcw := k.arith (subOp a b false)

/-- The amount of INC and DEC: the field plus 1 (R306, R309). -/
def amount {n : Nat} (field : BitVec 4) : BitVec n := BitVec.ofNat n (field.toNat + 1)

/-- INC: C unaffected (R309). -/
def incBy {n : Nat} (field : BitVec 4) (v : BitVec n) (k : Fcw) : BitVec n × Fcw :=
  let x := addOp v (amount field) false
  (x.value, k.step x)

/-- DEC: C unaffected (R306). -/
def decBy {n : Nat} (field : BitVec 4) (v : BitVec n) (k : Fcw) : BitVec n × Fcw :=
  let x := subOp v (amount field) false
  (x.value, k.step x)

/-- NEG (R311). -/
def negate {n : Nat} (cfg : Cfg) (v : BitVec n) (k : Fcw) : BitVec n × Fcw :=
  let x := subOp 0 v false
  (x.value, k.negate cfg x)

/-! ### Decimal adjust (R305) -/

/-- A row of the DAB table: D and C before, the range of the upper digit, H before, the range of the lower digit,
the number added, and C after. -/
structure DabRow where
  d : Bool
  c : Bool
  hiFrom : Nat
  hiTo : Nat
  h : Bool
  loFrom : Nat
  loTo : Nat
  add : Byte
  cAfter : Bool
  deriving DecidableEq, Repr

/-- The table of the DAB entry: 9 rows after an addition, 4 after a subtraction (R305). -/
def dabTable : List DabRow :=
  [ ⟨false, false, 0, 9, false, 0, 9, 0x00, false⟩,
    ⟨false, false, 0, 8, false, 10, 15, 0x06, false⟩,
    ⟨false, false, 0, 9, true, 0, 3, 0x06, false⟩,
    ⟨false, false, 10, 15, false, 0, 9, 0x60, true⟩,
    ⟨false, false, 9, 15, false, 10, 15, 0x66, true⟩,
    ⟨false, false, 10, 15, true, 0, 3, 0x66, true⟩,
    ⟨false, true, 0, 2, false, 0, 9, 0x60, true⟩,
    ⟨false, true, 0, 2, false, 10, 15, 0x66, true⟩,
    ⟨false, true, 0, 3, true, 0, 3, 0x66, true⟩,
    ⟨true, false, 0, 9, false, 0, 9, 0x00, false⟩,
    ⟨true, false, 0, 8, true, 6, 15, 0xFA, false⟩,
    ⟨true, true, 7, 15, false, 0, 9, 0xA0, true⟩,
    ⟨true, true, 6, 15, true, 6, 15, 0x9A, true⟩ ]

/-- The row covers this byte and these flags. -/
def DabRow.covers (w : DabRow) (v : Byte) (k : Fcw) : Bool :=
  let hi := v.toNat / 16
  let lo := v.toNat % 16
  w.d == k.d && w.c == k.c && w.h == k.h &&
    decide (w.hiFrom ≤ hi) && decide (hi ≤ w.hiTo) && decide (w.loFrom ≤ lo) && decide (lo ≤ w.loTo)

/-- The row of the table that applies, if any. -/
def dabRow (v : Byte) (k : Fcw) : Option DabRow := dabTable.find? fun w => w.covers v k

/-- DAB on a byte: by the table; where no row applies, the result, C, Z and S are free values (U7, log entry 16). -/
def decimalAdjust (free : Nat) (v : Byte) (k : Fcw) : Byte × Fcw :=
  match dabRow v k with
  | some w => (v + w.add, { k.zs (v + w.add) with c := w.cAfter })
  | none => (Config.dabResult free,
      { k with c := Config.dabCarry free, z := Config.dabZero free, s := Config.dabSign free })

/-! ### Multiply and divide (R307, R310) -/

/-- The four cases of R307. -/
inductive Division where
  | byZero
  | fits (q rem : Int)
  | extended (q rem : Int)
  | overflow
  deriving DecidableEq, Repr

/-- Signed division of `a` by `b` with a quotient of `w` bits: truncated with the remainder's sign that of the
dividend, or that of the divisor under the parameter value `divisor` (R307). -/
def divide (sign : RemSign) (w : Nat) (a b : Int) : Division :=
  if b = 0 then .byZero
  else
    let q := match sign with
      | .dividend => a.tdiv b
      | .divisor => a.fdiv b
    let rem := a - q * b
    if -(2 ^ (w - 1)) ≤ q ∧ q ≤ 2 ^ (w - 1) - 1 then .fits q rem
    else if -(2 ^ w - 1) ≤ q ∧ q ≤ 2 ^ w - 1 then .extended q rem
    else .overflow

/-- The flags of the case table of R307. -/
def Fcw.division (k : Fcw) : Division → Fcw
  | .byZero => { k with c := false, z := true, s := false, v := true }
  | .fits q _ => { k with c := false, z := decide (q = 0), s := decide (q < 0), v := false }
  | .extended q _ => { k with c := true, z := false, s := decide (q < 0), v := true }
  | .overflow => { k with c := false, z := false, s := false, v := true }

/-- `{remainder, quotient}` in two halves of `n` bits (R307). -/
def divHalves (n : Nat) (q rem : Int) : BitVec (n + n) := BitVec.ofInt n rem ++ BitVec.ofInt n q

/-- The destination of DIV after each case: unchanged for a zero divisor, a free value after an overflow (U1). -/
def divDest (free : Nat) (old : Long) : Division → Long
  | .byZero => old
  | .fits q rem => divHalves 16 q rem
  | .extended q rem => divHalves 16 q rem
  | .overflow => (Config.divUndefined free).setWidth 32

/-- The destination of DIVL after each case. -/
def divlDest (free : Nat) (old : Quad) : Division → Quad
  | .byZero => old
  | .fits q rem => divHalves 32 q rem
  | .extended q rem => divHalves 32 q rem
  | .overflow => Config.divUndefined free

/-- The flags of a product `p` of two `w`-bit numbers (R310). -/
def Fcw.product (k : Fcw) (w : Nat) (p : Int) : Fcw :=
  { k with
    c := !decide (-(2 ^ (w - 1)) ≤ p ∧ p ≤ 2 ^ (w - 1) - 1)
    z := decide (p = 0)
    s := decide (p < 0)
    v := false }

/-- The word registers of a register source. -/
def srcWords (z : Size) : Src z → List Reg
  | .reg c => if z = .l then [c, c + 1] else [c]
  | .imm _ => []
  | .mem _ => []

/-- DIV and DIVL at work: the intermediate results stand in the destination and in a register source (R307); a zero
divisor ends the instruction before that. -/
def State.dividing (cs : List Reg) (r : Division) (s : State) : State :=
  match r with
  | .byZero => s
  | .fits _ _ | .extended _ _ | .overflow => s.intermediate cs

/-- `v` repeated sign bits of a word (R308). -/
def signWord (b : Bool) : Word := if b then 0xFFFF else 0
def signByte (b : Bool) : Byte := if b then 0xFF else 0
def signLong (b : Bool) : Long := if b then 0xFFFFFFFF else 0

/-! ### Meanings -/

def execAdc (d c : Reg) (s : State) : Host.Outcome State Fault Refusal := answer (binary .w d (.reg c) (addWith true) s)
def execAdcb (d c : Reg) (s : State) : Host.Outcome State Fault Refusal :=
  answer (binary .b d (.reg c) (addByteWith true) s)
def execSbc (d c : Reg) (s : State) : Host.Outcome State Fault Refusal := answer (binary .w d (.reg c) (subWith true) s)
def execSbcb (d c : Reg) (s : State) : Host.Outcome State Fault Refusal :=
  answer (binary .b d (.reg c) (subByteWith true) s)
def execAdd (d : Reg) (src : Src .w) (s : State) : Host.Outcome State Fault Refusal :=
  answer (binary .w d src (addWith false) s)
def execAddb (d : Reg) (src : Src .b) (s : State) : Host.Outcome State Fault Refusal :=
  answer (binary .b d src (addByteWith false) s)
def execAddl (d : Reg) (src : Src .l) (s : State) : Host.Outcome State Fault Refusal :=
  answer (binary .l d src (addWith false) s)
def execCp (d : Reg) (src : Src .w) (s : State) : Host.Outcome State Fault Refusal :=
  answer (compare .w d src compareFlags s)
def execCpb (d : Reg) (src : Src .b) (s : State) : Host.Outcome State Fault Refusal :=
  answer (compare .b d src compareFlags s)
def execCpl (d : Reg) (src : Src .l) (s : State) : Host.Outcome State Fault Refusal :=
  answer (compare .l d src compareFlags s)
def execSub (d : Reg) (src : Src .w) (s : State) : Host.Outcome State Fault Refusal :=
  answer (binary .w d src (subWith false) s)
def execSubb (d : Reg) (src : Src .b) (s : State) : Host.Outcome State Fault Refusal :=
  answer (binary .b d src (subByteWith false) s)
def execSubl (d : Reg) (src : Src .l) (s : State) : Host.Outcome State Fault Refusal :=
  answer (binary .l d src (subWith false) s)
/-- R304: memory is the minuend. -/
def execCpImm (m : Mem) (v : Word) (s : State) : Host.Outcome State Fault Refusal :=
  answer (inspect .w (.mem m) (fun a k => compareFlags a v k) s)
/-- R304. -/
def execCpbImm (m : Mem) (v : Byte) (s : State) : Host.Outcome State Fault Refusal :=
  answer (inspect .b (.mem m) (fun a k => compareFlags a v k) s)
/-- R305. -/
def execDab (d : Reg) (s : State) : Host.Outcome State Fault Refusal :=
  let (r, k) := decimalAdjust s.freeCount (s.byte d) s.fcw
  .next (((s.setByte d r).setFcw k).bumpFree)
def execDec (d : Dst) (n : BitVec 4) (s : State) : Host.Outcome State Fault Refusal := answer (modify .w d (decBy n) s)
def execDecb (d : Dst) (n : BitVec 4) (s : State) : Host.Outcome State Fault Refusal := answer (modify .b d (decBy n) s)
def execInc (d : Dst) (n : BitVec 4) (s : State) : Host.Outcome State Fault Refusal := answer (modify .w d (incBy n) s)
def execIncb (d : Dst) (n : BitVec 4) (s : State) : Host.Outcome State Fault Refusal := answer (modify .b d (incBy n) s)

/-- R307. -/
def execDiv (d : Reg) (src : Src .w) (s : State) : Host.Outcome State Fault Refusal :=
  answer do
    require (pairOk d) (.illegalPair d)
    require (srcOutsidePair d src) .overlap
    let (b, s) ← readSrc .w src s
    let r := divide s.cfg.divRemSign 16 (s.long d).toInt b.toInt
    let s := s.dividing ([d, d + 1] ++ srcWords .w src) r
    return ((s.setLong d (divDest s.freeCount (s.long d) r)).setFcw (s.fcw.division r)).bumpFree

/-- R307. -/
def execDivl (d : Reg) (src : Src .l) (s : State) : Host.Outcome State Fault Refusal :=
  answer do
    require (quadOk d) (.illegalQuad d)
    require (srcOutsideQuad d src) .overlap
    let (b, s) ← readSrc .l src s
    let r := divide s.cfg.divRemSign 32 (s.quad d).toInt b.toInt
    let s := s.dividing ([d, d + 1, d + 2, d + 3] ++ srcWords .l src) r
    return ((s.setQuad d (divlDest s.freeCount (s.quad d) r)).setFcw (s.fcw.division r)).bumpFree

/-- R310: the multiplicand is the lower half of the destination; intermediate results stand in the destination and in a
register source. -/
def execMult (d : Reg) (src : Src .w) (s : State) : Host.Outcome State Fault Refusal :=
  answer do
    require (pairOk d) (.illegalPair d)
    require (srcOutsidePair d src) .overlap
    let (b, s) ← readSrc .w src s
    let p := (s.word (d + 1)).toInt * b.toInt
    let s := s.intermediate ([d, d + 1] ++ srcWords .w src)
    return (s.setLong d (BitVec.ofInt 32 p)).setFcw (s.fcw.product 16 p)

/-- R310. -/
def execMultl (d : Reg) (src : Src .l) (s : State) : Host.Outcome State Fault Refusal :=
  answer do
    require (quadOk d) (.illegalQuad d)
    require (srcOutsideQuad d src) .overlap
    let (b, s) ← readSrc .l src s
    let p := (s.long (d + 2)).toInt * b.toInt
    let s := s.intermediate ([d, d + 1, d + 2, d + 3] ++ srcWords .l src)
    return (s.setQuad d (BitVec.ofInt 64 p)).setFcw (s.fcw.product 32 p)

/-- R308: the low byte of the word register into its high byte. -/
def execExtsb (d : Reg) (s : State) : Host.Outcome State Fault Refusal :=
  .next (s.setWord d (signByte ((s.word d).getLsbD 7) ++ loByte (s.word d)))
/-- R308: the low word of the pair into its high word. -/
def execExts (d : Reg) (s : State) : Host.Outcome State Fault Refusal :=
  answer do
    require (pairOk d) (.illegalPair d)
    return s.setWord d (signWord (s.word (d + 1)).msb)
/-- R308: the low pair of the quadruple into its high pair. -/
def execExtsl (d : Reg) (s : State) : Host.Outcome State Fault Refusal :=
  answer do
    require (quadOk d) (.illegalQuad d)
    return s.setLong d (signLong (s.long (d + 2)).msb)

def execNeg (d : Dst) (s : State) : Host.Outcome State Fault Refusal := answer (modify .w d (negate s.cfg) s)
def execNegb (d : Dst) (s : State) : Host.Outcome State Fault Refusal := answer (modify .b d (negate s.cfg) s)

end Sys2Proof.Machine
end

