-- ==== Sys2Proof/Machine/Block.lean ====
section
/-! DEFINITION. Machine/Block.lean: block compare, block load and translate (spec 45_block_string.md). A repeating
form executes one iteration per step; while its end condition does not hold, PC goes back to its first word and the words stay held (R652, R99). -/

namespace Sys2Proof.Machine

/-! ### Shared operations -/

/-- The direction of the pointer steps: increment or decrement (R650). -/
inductive Direction where
  | up | down
  deriving DecidableEq, Repr

/-- `step(p, N, dir)` (R650). -/
def stepPointer (z : Size) (dir : Direction) (p : Reg) (s : State) : State :=
  match dir with
  | .up => s.setWord p (s.word p + z.bytes)
  | .down => s.setWord p (s.word p - z.bytes)

/-- `count(r)` (R650). -/
def countDown (r : Reg) (s : State) : State := s.setWord r (s.word r - 1)

/-- After an iteration of a repeating form: the instruction is over, or it goes on with the words the CPU holds (R99) and
PC at its first word, two words before, which is the PC an interrupt saves (R652). -/
def repeatUnless (done : Bool) (s : State) : State :=
  if done then s else { s with pc := s.pc - 4, repeating := true }

/-- The flags after an iteration of a block compare: C and S of the compare, Z the match, V the end of the count
(R665, R666). -/
def Fcw.blockCompare (k : Fcw) (hit zero : Bool) : Fcw := { k with z := hit, v := zero }

/-- `cp_iter(N, dir)` (R665): the state, and whether the condition held. -/
def compareIter (z : Size) (dir : Direction) (d p r : Reg) (cc : Cond) (s : State) : Comp (Bool × State) := do
  let (m, s) ← load z (dsp p) (s.word p) s
  let a ← readReg z d s
  let k := compareFlags a m s.fcw
  let hit := condHolds cc k
  let s := countDown r (stepPointer z dir p s)
  return (hit, s.setFcw (k.blockCompare hit (s.word r == 0)))

/-- `cps_iter(N, dir)` (R666): the source is read first. -/
def stringIter (z : Size) (dir : Direction) (d p r : Reg) (cc : Cond) (s : State) : Comp (Bool × State) := do
  let (m, s) ← load z (dsp p) (s.word p) s
  let (a, s) ← load z (dsp d) (s.word d) s
  let k := compareFlags a m s.fcw
  let hit := condHolds cc k
  let s := countDown r (stepPointer z dir d (stepPointer z dir p s))
  return (hit, s.setFcw (k.blockCompare hit (s.word r == 0)))

/-- `ld_iter(N, dir)` (R667): the read comes before the write; Z and V tell the end of the count. -/
def copyIter (z : Size) (dir : Direction) (d p r : Reg) (s : State) : Comp State := do
  let (v, s) ← load z (dsp p) (s.word p) s
  let s ← store z (dsp d) (s.word d) v s
  let s := countDown r (stepPointer z dir d (stepPointer z dir p s))
  return s.setFcw { s.fcw with z := s.word r == 0, v := s.word r == 0 }

/-- The table entry of a translate instruction: the string byte, unsigned, is added to the table pointer (R678). -/
def tableAddress (table : Word) (b : Byte) : Word := table + b.setWidth 16

/-- `tr_iter(dir)` (R678). -/
def translateIter (dir : Direction) (d t r : Reg) (s : State) : Comp State := do
  let (b, s) ← load .b (dsp d) (s.word d) s
  let (v, s) ← load .b (dsp t) (tableAddress (s.word t) b) s
  let s ← store .b (dsp d) (s.word d) v s
  let s := countDown r (stepPointer .b dir d s)
  return s.setFcw { s.fcw with v := s.word r == 0 }

/-- `trt_iter(dir)` (R678): the table entry goes to RH1; the second component is whether it is zero. -/
def translateTestIter (dir : Direction) (d t r : Reg) (s : State) : Comp (Bool × State) := do
  let (b, s) ← load .b (dsp d) (s.word d) s
  let (v, s) ← load .b (dsp t) (tableAddress (s.word t) b) s
  let s := countDown r (stepPointer .b dir d (s.setByte 1 v))
  return (v == 0, s.setFcw { s.fcw with z := v == 0, v := s.word r == 0 })

/-- The register restrictions of a block compare with a register: for bytes the word register that holds the
destination byte counts (R651). -/
def compareSeparate (z : Size) (d p r : Reg) : Bool :=
  match z with
  | .b => separate (byteHome d) p r
  | .w => separate d p r
  | .l => separate d p r

/-- A single block compare with a register. -/
def compareOnce (z : Size) (dir : Direction) (d p r : Reg) (cc : Cond) (s : State) : Comp State := do
  require (compareSeparate z d p r) .overlap
  let (_, s) ← compareIter z dir d p r cc s
  return s

/-- A repeating block compare with a register: it ends on a match or at the end of the count (R654, R656). -/
def compareRepeat (z : Size) (dir : Direction) (d p r : Reg) (cc : Cond) (s : State) : Comp State := do
  require (compareSeparate z d p r) .overlap
  let (hit, s) ← compareIter z dir d p r cc s
  return repeatUnless (hit || s.word r == 0) s

/-- A single string compare. -/
def stringOnce (z : Size) (dir : Direction) (d p r : Reg) (cc : Cond) (s : State) : Comp State := do
  require (separate d p r) .overlap
  let (_, s) ← stringIter z dir d p r cc s
  return s

/-- A repeating string compare (R658, R660). -/
def stringRepeat (z : Size) (dir : Direction) (d p r : Reg) (cc : Cond) (s : State) : Comp State := do
  require (separate d p r) .overlap
  let (hit, s) ← stringIter z dir d p r cc s
  return repeatUnless (hit || s.word r == 0) s

/-- A single block load. -/
def copyOnce (z : Size) (dir : Direction) (d p r : Reg) (s : State) : Comp State := do
  require (separate d p r) .overlap
  copyIter z dir d p r s

/-- A repeating block load: `done <- cc(c) or R[r] = 0`, for a condition that tests no flag the instruction writes
(R700). -/
def copyRepeat (z : Size) (dir : Direction) (d p r : Reg) (cc : Cond) (s : State) : Comp State := do
  require (blockLoadCondition cc) (.blockCondition cc)
  require (separate d p r) .overlap
  let s ← copyIter z dir d p r s
  return repeatUnless (condHolds cc s.fcw || s.word r == 0) s

/-- A single translation. -/
def translateOnce (dir : Direction) (d t r : Reg) (s : State) : Comp State := do
  require (separate d t r) .overlap
  translateIter dir d t r s

/-- A repeating translation (R671, R673). -/
def translateRepeat (dir : Direction) (d t r : Reg) (s : State) : Comp State := do
  require (separate d t r) .overlap
  let s ← translateIter dir d t r s
  return repeatUnless (s.word r == 0) s

/-- The restrictions of the translate-and-test forms: R1, which holds RH1, is excluded too (R674). -/
def testSeparate (d t r : Reg) : Bool := separate d t r && d != 1 && t != 1 && r != 1

/-- A single translation and test. -/
def translateTestOnce (dir : Direction) (d t r : Reg) (s : State) : Comp State := do
  require (testSeparate d t r) .overlap
  let (_, s) ← translateTestIter dir d t r s
  return s

/-- `TRT_REPEAT_UNTIL` (R675): the scan ends at a non-zero entry, or at a zero one. -/
def scanEnds (rule : TrtUntil) (zero : Bool) : Bool :=
  match rule with
  | .nonzero => !zero
  | .zero => zero

/-- A repeating translation and test (R675, R677). -/
def translateTestRepeat (dir : Direction) (d t r : Reg) (s : State) : Comp State := do
  require (testSeparate d t r) .overlap
  let (zero, s) ← translateTestIter dir d t r s
  return repeatUnless (scanEnds s.cfg.trtRepeatUntil zero || s.word r == 0) s

/-! ### Meanings -/

def execCpd (d p r : Reg) (cc : Cond) (s : State) : Host.Outcome State Fault Refusal :=
  answer (compareOnce .w .down d p r cc s)
def execCpdb (d p r : Reg) (cc : Cond) (s : State) : Host.Outcome State Fault Refusal :=
  answer (compareOnce .b .down d p r cc s)
def execCpdr (d p r : Reg) (cc : Cond) (s : State) : Host.Outcome State Fault Refusal :=
  answer (compareRepeat .w .down d p r cc s)
def execCpdrb (d p r : Reg) (cc : Cond) (s : State) : Host.Outcome State Fault Refusal :=
  answer (compareRepeat .b .down d p r cc s)
def execCpi (d p r : Reg) (cc : Cond) (s : State) : Host.Outcome State Fault Refusal :=
  answer (compareOnce .w .up d p r cc s)
def execCpib (d p r : Reg) (cc : Cond) (s : State) : Host.Outcome State Fault Refusal :=
  answer (compareOnce .b .up d p r cc s)
def execCpir (d p r : Reg) (cc : Cond) (s : State) : Host.Outcome State Fault Refusal :=
  answer (compareRepeat .w .up d p r cc s)
def execCpirb (d p r : Reg) (cc : Cond) (s : State) : Host.Outcome State Fault Refusal :=
  answer (compareRepeat .b .up d p r cc s)
def execCpsd (d p r : Reg) (cc : Cond) (s : State) : Host.Outcome State Fault Refusal :=
  answer (stringOnce .w .down d p r cc s)
def execCpsdb (d p r : Reg) (cc : Cond) (s : State) : Host.Outcome State Fault Refusal :=
  answer (stringOnce .b .down d p r cc s)
def execCpsdr (d p r : Reg) (cc : Cond) (s : State) : Host.Outcome State Fault Refusal :=
  answer (stringRepeat .w .down d p r cc s)
def execCpsdrb (d p r : Reg) (cc : Cond) (s : State) : Host.Outcome State Fault Refusal :=
  answer (stringRepeat .b .down d p r cc s)
def execCpsi (d p r : Reg) (cc : Cond) (s : State) : Host.Outcome State Fault Refusal :=
  answer (stringOnce .w .up d p r cc s)
def execCpsib (d p r : Reg) (cc : Cond) (s : State) : Host.Outcome State Fault Refusal :=
  answer (stringOnce .b .up d p r cc s)
def execCpsir (d p r : Reg) (cc : Cond) (s : State) : Host.Outcome State Fault Refusal :=
  answer (stringRepeat .w .up d p r cc s)
def execCpsirb (d p r : Reg) (cc : Cond) (s : State) : Host.Outcome State Fault Refusal :=
  answer (stringRepeat .b .up d p r cc s)
def execLdd (d p r : Reg) (s : State) : Host.Outcome State Fault Refusal :=
  answer (copyOnce .w .down d p r s)
def execLddb (d p r : Reg) (s : State) : Host.Outcome State Fault Refusal :=
  answer (copyOnce .b .down d p r s)
def execLdi (d p r : Reg) (s : State) : Host.Outcome State Fault Refusal :=
  answer (copyOnce .w .up d p r s)
def execLdib (d p r : Reg) (s : State) : Host.Outcome State Fault Refusal :=
  answer (copyOnce .b .up d p r s)
def execLddr (d p r : Reg) (cc : Cond) (s : State) : Host.Outcome State Fault Refusal :=
  answer (copyRepeat .w .down d p r cc s)
def execLddrb (d p r : Reg) (cc : Cond) (s : State) : Host.Outcome State Fault Refusal :=
  answer (copyRepeat .b .down d p r cc s)
def execLdir (d p r : Reg) (cc : Cond) (s : State) : Host.Outcome State Fault Refusal :=
  answer (copyRepeat .w .up d p r cc s)
def execLdirb (d p r : Reg) (cc : Cond) (s : State) : Host.Outcome State Fault Refusal :=
  answer (copyRepeat .b .up d p r cc s)
def execTrdb (d t r : Reg) (s : State) : Host.Outcome State Fault Refusal :=
  answer (translateOnce .down d t r s)
def execTrdrb (d t r : Reg) (s : State) : Host.Outcome State Fault Refusal :=
  answer (translateRepeat .down d t r s)
def execTrib (d t r : Reg) (s : State) : Host.Outcome State Fault Refusal :=
  answer (translateOnce .up d t r s)
def execTrirb (d t r : Reg) (s : State) : Host.Outcome State Fault Refusal :=
  answer (translateRepeat .up d t r s)
def execTrtdb (d t r : Reg) (s : State) : Host.Outcome State Fault Refusal :=
  answer (translateTestOnce .down d t r s)
def execTrtdrb (d t r : Reg) (s : State) : Host.Outcome State Fault Refusal :=
  answer (translateTestRepeat .down d t r s)
def execTrtib (d t r : Reg) (s : State) : Host.Outcome State Fault Refusal :=
  answer (translateTestOnce .up d t r s)
def execTrtirb (d t r : Reg) (s : State) : Host.Outcome State Fault Refusal :=
  answer (translateTestRepeat .up d t r s)

end Sys2Proof.Machine
end

