-- ==== Sys2Proof/Machine/Control.lean ====
section
/-! DEFINITION. Machine/Control.lean: CALL, CALR, DJNZ, DBJNZ, JP, JR and RET (spec 44_program_control.md). The PC
they start from is that of the next instruction (R120). No flag changes. -/

namespace Sys2Proof.Machine

/-! ### Shared operations -/

/-- The discarded read of the IR forms of CALL and JP (R90, R600, R603). -/
def discardTarget (m : Mem) (s : State) : State :=
  match m with
  | .ind r => discardRead (dsp r) (s.word r) s
  | .da _ => s
  | .x _ _ => s

/-- Push the PC of the next instruction and go to `a` (R600, R601). -/
def callTo (a : Word) (s : State) : Comp State := do
  let t ← push s.pc s
  return t.setPc a

/-- `PC - 2 * u(e)` (R120). -/
def backward (e : BitVec 7) (s : State) : Word := s.pc - 2 * e.setWidth 16

/-- R602: decrement, and jump back when the result is not zero. -/
def decrementJump (z : Size) (c : Reg) (e : BitVec 7) (s : State) : Comp State := do
  let v ← readReg z c s
  let s ← writeReg z c (v - 1) s
  return if v - 1 = 0 then s else s.setPc (backward e s)

/-! ### Meanings -/

/-- R600: the target is the effective address itself; a target that uses R15 is refused (D20). -/
def execCall (m : Mem) (s : State) : Host.Outcome State Fault Refusal :=
  answer do
    require (memAvoids 15 m) .callThroughStackPointer
    callTo (memEA m s).2 (discardTarget m s)
/-- R601: the displacement is subtracted. -/
def execCalr (e : BitVec 12) (s : State) : Host.Outcome State Fault Refusal :=
  answer (callTo (s.pc - 2 * e.signExtend 16) s)
def execDjnz (c : Reg) (e : BitVec 7) (s : State) : Host.Outcome State Fault Refusal :=
  answer (decrementJump .w c e s)
def execDbjnz (c : Reg) (e : BitVec 7) (s : State) : Host.Outcome State Fault Refusal :=
  answer (decrementJump .b c e s)
/-- R603: the read of the IR form is made only when the jump is taken. -/
def execJp (cc : Cond) (m : Mem) (s : State) : Host.Outcome State Fault Refusal :=
  if condHolds cc s.fcw then .next ((discardTarget m s).setPc (memEA m s).2) else .next s
/-- R604: the displacement is added. -/
def execJr (cc : Cond) (e : BitVec 8) (s : State) : Host.Outcome State Fault Refusal :=
  if condHolds cc s.fcw then .next (s.setPc (s.pc + 2 * e.signExtend 16)) else .next s
/-- R605: a false condition reads nothing and leaves SP. -/
def execRet (cc : Cond) (s : State) : Host.Outcome State Fault Refusal :=
  answer (if condHolds cc s.fcw then do
      let (a, s) ← pop s
      return s.setPc a
    else return s)

end Sys2Proof.Machine
end

