-- ==== Sys2Proof/Machine/Cpu.lean ====
section
/-! DEFINITION. Machine/Cpu.lean: the CPU control instructions (spec 47_cpu_control.md). -/

namespace Sys2Proof.Machine

/-! ### Shared operations -/

/-- FCW[7:4], the flags C, Z, S, V, combined bit by bit with the field CZSV (R122). -/
def Fcw.mapCzsv (k : Fcw) (op : Bool → Bool → Bool) (f : BitVec 4) : Fcw :=
  { k with
    c := op k.c (f.getLsbD 3)
    z := op k.z (f.getLsbD 2)
    s := op k.s (f.getLsbD 1)
    v := op k.v (f.getLsbD 0) }

/-- `LDCTL ctl, Rs` (R860): FCW through `fcw_legal`, PSAP without its low byte. -/
def writeCtl (c : Ctl) (v : Word) (s : State) : State :=
  match c with
  | .fcw => s.setFcw (Fcw.legal s.cfg v)
  | .refresh => { s with refresh := v }
  | .psap => { s with psap := hiByte v ++ 0#8 }
  | .nsp => { s with nsp := v }

/-- A read of REFRESH: with `REV = Full` and REN = 1 the Row field is a free value (R44, U15, log entry 17). -/
def readRefresh (s : State) : Word × State :=
  if s.rowRuns then (s.refresh.extractLsb' 9 7 ++ Config.refreshRow s.freeCount, s.bumpFree) else (s.refresh, s)

/-- `LDCTL Rd, ctl` (R861). -/
def readCtl (c : Ctl) (s : State) : Word × State :=
  match c with
  | .fcw => (s.fcwWord, s)
  | .refresh => readRefresh s
  | .psap => (hiByte s.psap ++ 0#8, s)
  | .nsp => (s.nsp, s)

/-- MREQ after a first sample that finds the line free (R873): the delay loop, which counts the register itself down to
zero, then the second sample decides between granted and not granted. -/
def requestLine (d : Reg) (s : State) : State :=
  let s := (s.intermediate [d]).setWord d 0
  let (high, s) := takeMib s
  { s with fcw := { s.fcw with z := true, s := !high }, mob := high }

/-- MREQ when the line is already asserted by another processor (R873). -/
def requestBlocked (s : State) : State := { s with fcw := { s.fcw with z := false, s := false }, mob := true }

/-- R873: the two samples of MIB are separate. -/
def multiMicroRequest (d : Reg) (s : State) : State :=
  let (high, s) := takeMib s
  if high then requestLine d s else requestBlocked s

/-- R868: both words are read in the space and mode in force when the instruction began. -/
def loadProgramStatus (m : Mem) (s : State) : Comp State := do
  let a := memEA m s
  let (w, s) ← load .w a.1 a.2 s
  let (p, s) ← load .w a.1 (a.2 + 2) s
  return (s.setFcw (Fcw.legal s.cfg w)).setPc p

/-- The number of words of an instruction with one memory operand. -/
def memOperandWords : Mem → Word
  | .ind _ => 1
  | .da _ => 2
  | .x _ _ => 2

/-! ### Meanings -/

/-- R850: the selected flags and, always, H. -/
def execComflg (f : BitVec 4) (s : State) : Host.Outcome State Fault Refusal :=
  .next (s.setFcw { s.fcw.mapCzsv xor f with h := !s.fcw.h })
/-- R851. -/
def execResflg (f : BitVec 4) (s : State) : Host.Outcome State Fault Refusal :=
  .next (s.setFcw (s.fcw.mapCzsv (fun old b => old && !b) f))
/-- R852. -/
def execSetflg (f : BitVec 4) (s : State) : Host.Outcome State Fault Refusal :=
  .next (s.setFcw (s.fcw.mapCzsv or f))
/-- R855. -/
def execNop (s : State) : Host.Outcome State Fault Refusal := .next s
/-- R853: a field bit of 0 selects the interrupt. -/
def execDi (v : BitVec 2) (s : State) : Host.Outcome State Fault Refusal :=
  answer (privileged (.di v) 1
    (fun s => .ok (s.setFcw { s.fcw with vie := s.fcw.vie && v.getLsbD 1, nvie := s.fcw.nvie && v.getLsbD 0 })) s)
/-- R854. -/
def execEi (v : BitVec 2) (s : State) : Host.Outcome State Fault Refusal :=
  answer (privileged (.ei v) 1
    (fun s => .ok (s.setFcw { s.fcw with vie := s.fcw.vie || !v.getLsbD 1, nvie := s.fcw.nvie || !v.getLsbD 0 })) s)
/-- R856: the following steps idle until an interrupt is accepted. -/
def execHalt (s : State) : Host.Outcome State Fault Refusal :=
  answer (privileged .halt 1 (fun s => .ok { s with halted := true }) s)
/-- R857. -/
def execIret (s : State) : Host.Outcome State Fault Refusal := answer (privileged .iret 1 leave s)
/-- R858: the whole first word is the identifier. -/
def execSc (src : Byte) (s : State) : Host.Outcome State Fault Refusal :=
  answer (enter .systemCall s.pc (0x7F#8 ++ src) s)
/-- R860. -/
def execLdctlTo (c : Ctl) (r : Reg) (s : State) : Host.Outcome State Fault Refusal :=
  answer (privileged (.ldctlTo c r) 1 (fun s => .ok (writeCtl c (s.word r) s)) s)
/-- R861. -/
def execLdctlFrom (d : Reg) (c : Ctl) (s : State) : Host.Outcome State Fault Refusal :=
  answer (privileged (.ldctlFrom d c) 1 (fun s => .ok ((readCtl c s).2.setWord d (readCtl c s).1)) s)
/-- R866. -/
def execLdctlbFrom (d : Reg) (s : State) : Host.Outcome State Fault Refusal := .next (s.setByte d s.flags)
/-- R867. -/
def execLdctlbTo (c : Reg) (s : State) : Host.Outcome State Fault Refusal :=
  .next (s.setFcw (s.fcw.withFlags s.cfg.fcwBits (s.byte c)))
/-- R868. -/
def execLdps (m : Mem) (s : State) : Host.Outcome State Fault Refusal :=
  answer (privileged (.ldps m) (memOperandWords m) (loadProgramStatus m) s)
/-- R870. -/
def execMset (s : State) : Host.Outcome State Fault Refusal :=
  answer (privileged .mset 1 (fun s => .ok { s with mob := false }) s)
/-- R871. -/
def execMres (s : State) : Host.Outcome State Fault Refusal :=
  answer (privileged .mres 1 (fun s => .ok { s with mob := true }) s)
/-- R872: one sample of MIB goes to S. -/
def execMbit (s : State) : Host.Outcome State Fault Refusal :=
  answer (privileged .mbit 1
    (fun s => .ok ((takeMib s).2.setFcw { s.fcw with s := (takeMib s).1 })) s)
/-- R873. -/
def execMreq (d : Reg) (s : State) : Host.Outcome State Fault Refusal :=
  answer (privileged (.mreq d) 1 (fun s => .ok (multiMicroRequest d s)) s)

end Sys2Proof.Machine
end

