-- ==== Sys2Proof/Machine/Epu.lean ====
section
/-! DEFINITION. Machine/Epu.lean: the extended instructions (spec 48_extended.md): the transfers the CPU makes for an
Extended Processing Unit with `REV = Full` and EPA = 1, and the traps otherwise. -/

namespace Sys2Proof.Machine

/-! ### Shared operations -/

/-- `R[d] <- EpuGive()`, `n` times; R0 follows R15 (R953). The transfers are EPU/CPU transactions. -/
def epuToRegs : Nat → Reg → State → State
  | 0, _, s => s
  | n + 1, d, s =>
    let (w, s) := takeEpu s
    epuToRegs n (d + 1) ((s.note (.transfer .epuCpu s.fcw.sys true false 0 w)).setWord d w)

/-- `MemWrite(sp:a, 2, EpuGive())`, `n` times at ascending addresses, with the EPU status codes (R953). -/
def epuToMem (sp : Space) : Nat → Word → State → Comp State
  | 0, _, s => .ok s
  | n + 1, a, s => do
    let (w, s) := takeEpu s
    let s ← writeWordAs sp.epuStatus sp a w s
    epuToMem sp n (a + 2) s

/-- `EpuTake(R[c])`, `n` times (R954). -/
def regsToEpu : Nat → Reg → State → State
  | 0, _, s => s
  | n + 1, c, s => regsToEpu n (c + 1) (s.note (.transfer .epuCpu s.fcw.sys false false 0 (s.word c)))

/-- `EpuTake(MemRead(sp:a, 2))`, `n` times: the EPU takes the word during the read transaction (R954). -/
def memToEpu (sp : Space) : Nat → Word → State → Comp State
  | 0, _, s => .ok s
  | n + 1, a, s => do
    let (_, s) ← readWordAs sp.epuStatus sp a s
    memToEpu sp n (a + 2) s

/-- `n`, 1 to 16 (R959). -/
def epuCount (n : BitVec 4) : Nat := n.toNat + 1

/-- The number of words of an EPU memory transfer. -/
def epuMemWords : Mem → Word
  | .ind _ => 2
  | .da _ => 3
  | .x _ _ => 3

/-- `FCW[7:2] <- w[7:2]` with `w <- EpuGive()` (R955). DESIGN CHOICE (log entry 29): the spec gives neither the width of
the transaction nor an address; a word transaction at address 0 is recorded. -/
def epuToFlags (s : State) : State :=
  let (w, s) := takeEpu s
  (s.note (.transfer .epuCpu s.fcw.sys true false 0 w)).setFcw (s.fcw.withFlags s.cfg.fcwBits (loByte w))

/-! ### Meanings -/

/-- R953, the register form. -/
def execLdFromEpu (d : Reg) (_ : BitVec 3) (_ : BitVec 2) (_ _ n : BitVec 4) (s : State) :
    Host.Outcome State Fault Refusal :=
  answer (extended 2 (fun s => .ok (epuToRegs (epuCount n) d s)) s)
/-- R953, the memory forms. -/
def execLdFromEpuMem (m : Mem) (_ : BitVec 2) (_ : BitVec 12) (n : BitVec 4) (s : State) :
    Host.Outcome State Fault Refusal :=
  answer (extended (epuMemWords m) (fun s => epuToMem (memEA m s).1 (epuCount n) (memEA m s).2 s) s)
/-- R954, the register form. -/
def execLdToEpu (c : Reg) (_ : BitVec 3) (_ : BitVec 2) (_ _ n : BitVec 4) (s : State) :
    Host.Outcome State Fault Refusal :=
  answer (extended 2 (fun s => .ok (regsToEpu (epuCount n) c s)) s)
/-- R954, the memory forms. -/
def execLdToEpuMem (m : Mem) (_ : BitVec 2) (_ : BitVec 12) (n : BitVec 4) (s : State) :
    Host.Outcome State Fault Refusal :=
  answer (extended (epuMemWords m) (fun s => memToEpu (memEA m s).1 (epuCount n) (memEA m s).2 s) s)
/-- R955. -/
def execLdbFcwEpu (_ : BitVec 4) (_ : BitVec 2) (_ _ : BitVec 4) (s : State) :
    Host.Outcome State Fault Refusal :=
  answer (extended 2 (fun s => .ok (epuToFlags s)) s)
/-- R956: the flag byte, zero-extended, as a word transaction (DESIGN CHOICE, log entry 29). -/
def execLdbEpuFcw (_ : BitVec 4) (_ : BitVec 2) (_ _ : BitVec 4) (s : State) :
    Host.Outcome State Fault Refusal :=
  answer (extended 2
    (fun s => .ok (s.note (.transfer .epuCpu s.fcw.sys false false 0 (s.flags.setWidth 16)))) s)
/-- R957: the EPU sees both words; no CPU state changes. The words are those of the instruction itself. -/
def execEpui (a : BitVec 4) (i : BitVec 2) (x : BitVec 12) (n : BitVec 4) (s : State) :
    Host.Outcome State Fault Refusal :=
  answer (extended 2
    (fun s => .ok (s.note (.epuInternal (firstWord 2 0x0E a (1#2 ++ i)) (x ++ n)))) s)

end Sys2Proof.Machine
end

