-- ==== Sys2Proof/Machine/Io.lean ====
section
/-! DEFINITION. Machine/Io.lean: input and output, single and block (spec 46_io.md). Every instruction here is
privileged (R750, R1041). -/

namespace Sys2Proof.Machine

/-! ### Shared operations -/

/-- The port address of IN and OUT: R15 has no special meaning as a port register (R752). -/
def portOf (p : PortForm) (s : State) : Word :=
  match p with
  | .ir r => s.word r
  | .da port => port

/-- The words of IN and OUT: the DA form has a port word. -/
def portWords : PortForm → Word
  | .ir _ => 1
  | .da _ => 2

/-- R752. -/
def input (z : Size) (sp : IoSpace) (d : Reg) (port : Word) (s : State) : Comp State :=
  let (v, s) := ioRead z sp port s
  writeReg z d v s

/-- R760. -/
def output (z : Size) (sp : IoSpace) (port : Word) (c : Reg) (s : State) : Comp State := do
  let v ← readReg z c s
  return ioWrite z sp port v s

/-- `in_iter(N, dir, sp)` (R757): `p` holds the port address and is not changed. -/
def inputIter (z : Size) (sp : IoSpace) (dir : Direction) (d p r : Reg) (s : State) : Comp State := do
  let (v, s) := ioRead z sp (s.word p) s
  let s ← store z (dsp d) (s.word d) v s
  let s := countDown r (stepPointer z dir d s)
  return s.setFcw { s.fcw with v := s.word r == 0 }

/-- `out_iter(N, dir, sp)` (R765): `d` holds the port address and is not changed. -/
def outputIter (z : Size) (sp : IoSpace) (dir : Direction) (d p r : Reg) (s : State) : Comp State := do
  let (v, s) ← load z (dsp p) (s.word p) s
  let s := ioWrite z sp (s.word d) v s
  let s := countDown r (stepPointer z dir p s)
  return s.setFcw { s.fcw with v := s.word r == 0 }

/-- A single block input or output: the registers must be separate as the entries say (R753). -/
def ioOnce (i : Instr) (iter : State → Comp State) (d p r : Reg) : State → Comp State :=
  privileged i 2 fun s => do
    require (separate d p r) .overlap
    iter s

/-- A repeating block input or output (R652, R700). -/
def ioRepeat (i : Instr) (iter : State → Comp State) (d p r : Reg) (cc : Cond) : State → Comp State :=
  privileged i 2 fun s => do
    require (blockIoCondition cc) (.blockCondition cc)
    require (separate d p r) .overlap
    let s ← iter s
    return repeatUnless (condHolds cc s.fcw || s.word r == 0) s

/-! ### Meanings -/

def execInp (d : Reg) (src : PortForm) (s : State) : Host.Outcome State Fault Refusal :=
  answer (privileged (.inp d src) (portWords src) (fun s => input .w .standard d (portOf src s) s) s)
def execSin (d : Reg) (port : Word) (s : State) : Host.Outcome State Fault Refusal :=
  answer (privileged (.sin d port) 2 (fun s => input .w .special d port s) s)
def execOutp (dst : PortForm) (c : Reg) (s : State) : Host.Outcome State Fault Refusal :=
  answer (privileged (.outp dst c) (portWords dst) (fun s => output .w .standard (portOf dst s) c s) s)
def execSout (port : Word) (c : Reg) (s : State) : Host.Outcome State Fault Refusal :=
  answer (privileged (.sout port c) 2 (fun s => output .w .special port c s) s)
def execInpb (d : Reg) (src : PortForm) (s : State) : Host.Outcome State Fault Refusal :=
  answer (privileged (.inpb d src) (portWords src) (fun s => input .b .standard d (portOf src s) s) s)
def execSinb (d : Reg) (port : Word) (s : State) : Host.Outcome State Fault Refusal :=
  answer (privileged (.sinb d port) 2 (fun s => input .b .special d port s) s)
def execOutpb (dst : PortForm) (c : Reg) (s : State) : Host.Outcome State Fault Refusal :=
  answer (privileged (.outpb dst c) (portWords dst) (fun s => output .b .standard (portOf dst s) c s) s)
def execSoutb (port : Word) (c : Reg) (s : State) : Host.Outcome State Fault Refusal :=
  answer (privileged (.soutb port c) 2 (fun s => output .b .special port c s) s)
def execInd (d p r : Reg) (s : State) : Host.Outcome State Fault Refusal :=
  answer (ioOnce (.ind d p r) (inputIter .w .standard .down d p r) d p r s)
def execIndb (d p r : Reg) (s : State) : Host.Outcome State Fault Refusal :=
  answer (ioOnce (.indb d p r) (inputIter .b .standard .down d p r) d p r s)
def execSind (d p r : Reg) (s : State) : Host.Outcome State Fault Refusal :=
  answer (ioOnce (.sind d p r) (inputIter .w .special .down d p r) d p r s)
def execSindb (d p r : Reg) (s : State) : Host.Outcome State Fault Refusal :=
  answer (ioOnce (.sindb d p r) (inputIter .b .special .down d p r) d p r s)
def execIndr (d p r : Reg) (cc : Cond) (s : State) : Host.Outcome State Fault Refusal :=
  answer (ioRepeat (.indr d p r cc) (inputIter .w .standard .down d p r) d p r cc s)
def execIndrb (d p r : Reg) (cc : Cond) (s : State) : Host.Outcome State Fault Refusal :=
  answer (ioRepeat (.indrb d p r cc) (inputIter .b .standard .down d p r) d p r cc s)
def execSindr (d p r : Reg) (cc : Cond) (s : State) : Host.Outcome State Fault Refusal :=
  answer (ioRepeat (.sindr d p r cc) (inputIter .w .special .down d p r) d p r cc s)
def execSindrb (d p r : Reg) (cc : Cond) (s : State) : Host.Outcome State Fault Refusal :=
  answer (ioRepeat (.sindrb d p r cc) (inputIter .b .special .down d p r) d p r cc s)
def execIni (d p r : Reg) (s : State) : Host.Outcome State Fault Refusal :=
  answer (ioOnce (.ini d p r) (inputIter .w .standard .up d p r) d p r s)
def execInib (d p r : Reg) (s : State) : Host.Outcome State Fault Refusal :=
  answer (ioOnce (.inib d p r) (inputIter .b .standard .up d p r) d p r s)
def execSini (d p r : Reg) (s : State) : Host.Outcome State Fault Refusal :=
  answer (ioOnce (.sini d p r) (inputIter .w .special .up d p r) d p r s)
def execSinib (d p r : Reg) (s : State) : Host.Outcome State Fault Refusal :=
  answer (ioOnce (.sinib d p r) (inputIter .b .special .up d p r) d p r s)
def execInir (d p r : Reg) (cc : Cond) (s : State) : Host.Outcome State Fault Refusal :=
  answer (ioRepeat (.inir d p r cc) (inputIter .w .standard .up d p r) d p r cc s)
def execInirb (d p r : Reg) (cc : Cond) (s : State) : Host.Outcome State Fault Refusal :=
  answer (ioRepeat (.inirb d p r cc) (inputIter .b .standard .up d p r) d p r cc s)
def execSinir (d p r : Reg) (cc : Cond) (s : State) : Host.Outcome State Fault Refusal :=
  answer (ioRepeat (.sinir d p r cc) (inputIter .w .special .up d p r) d p r cc s)
def execSinirb (d p r : Reg) (cc : Cond) (s : State) : Host.Outcome State Fault Refusal :=
  answer (ioRepeat (.sinirb d p r cc) (inputIter .b .special .up d p r) d p r cc s)
def execOutd (d p r : Reg) (s : State) : Host.Outcome State Fault Refusal :=
  answer (ioOnce (.outd d p r) (outputIter .w .standard .down d p r) d p r s)
def execOutdb (d p r : Reg) (s : State) : Host.Outcome State Fault Refusal :=
  answer (ioOnce (.outdb d p r) (outputIter .b .standard .down d p r) d p r s)
def execSoutd (d p r : Reg) (s : State) : Host.Outcome State Fault Refusal :=
  answer (ioOnce (.soutd d p r) (outputIter .w .special .down d p r) d p r s)
def execSoutdb (d p r : Reg) (s : State) : Host.Outcome State Fault Refusal :=
  answer (ioOnce (.soutdb d p r) (outputIter .b .special .down d p r) d p r s)
def execOtdr (d p r : Reg) (cc : Cond) (s : State) : Host.Outcome State Fault Refusal :=
  answer (ioRepeat (.otdr d p r cc) (outputIter .w .standard .down d p r) d p r cc s)
def execOtdrb (d p r : Reg) (cc : Cond) (s : State) : Host.Outcome State Fault Refusal :=
  answer (ioRepeat (.otdrb d p r cc) (outputIter .b .standard .down d p r) d p r cc s)
def execSotdr (d p r : Reg) (cc : Cond) (s : State) : Host.Outcome State Fault Refusal :=
  answer (ioRepeat (.sotdr d p r cc) (outputIter .w .special .down d p r) d p r cc s)
def execSotdrb (d p r : Reg) (cc : Cond) (s : State) : Host.Outcome State Fault Refusal :=
  answer (ioRepeat (.sotdrb d p r cc) (outputIter .b .special .down d p r) d p r cc s)
def execOuti (d p r : Reg) (s : State) : Host.Outcome State Fault Refusal :=
  answer (ioOnce (.outi d p r) (outputIter .w .standard .up d p r) d p r s)
def execOutib (d p r : Reg) (s : State) : Host.Outcome State Fault Refusal :=
  answer (ioOnce (.outib d p r) (outputIter .b .standard .up d p r) d p r s)
def execSouti (d p r : Reg) (s : State) : Host.Outcome State Fault Refusal :=
  answer (ioOnce (.souti d p r) (outputIter .w .special .up d p r) d p r s)
def execSoutib (d p r : Reg) (s : State) : Host.Outcome State Fault Refusal :=
  answer (ioOnce (.soutib d p r) (outputIter .b .special .up d p r) d p r s)
def execOtir (d p r : Reg) (cc : Cond) (s : State) : Host.Outcome State Fault Refusal :=
  answer (ioRepeat (.otir d p r cc) (outputIter .w .standard .up d p r) d p r cc s)
def execOtirb (d p r : Reg) (cc : Cond) (s : State) : Host.Outcome State Fault Refusal :=
  answer (ioRepeat (.otirb d p r cc) (outputIter .b .standard .up d p r) d p r cc s)
def execSotir (d p r : Reg) (cc : Cond) (s : State) : Host.Outcome State Fault Refusal :=
  answer (ioRepeat (.sotir d p r cc) (outputIter .w .special .up d p r) d p r cc s)
def execSotirb (d p r : Reg) (cc : Cond) (s : State) : Host.Outcome State Fault Refusal :=
  answer (ioRepeat (.sotirb d p r cc) (outputIter .b .special .up d p r) d p r cc s)

end Sys2Proof.Machine
end

