-- ==== Sys2Proof/Machine/Load.lean ====
section
/-! DEFINITION. Machine/Load.lean: CLR, EX, LD, LDA, LDAR, LDK, LDM, LDR, POP and PUSH (spec
40_load_exchange.md). No instruction here changes a flag. -/

namespace Sys2Proof.Machine

/-! ### Shared operations -/

/-- R201: the memory forms write without reading. -/
def clear (z : Size) (d : Dst) (s : State) : Comp State := writeDst z d 0 s

/-- R202: "tmp <= src; src <= dst; dst <= tmp". -/
def exchange (z : Size) (d : Reg) (src : Dst) (s : State) : Comp State :=
  match src with
  | .reg c => do
    let t ← readReg z c s
    let u ← readReg z d s
    let s ← writeReg z c u s
    writeReg z d t s
  | .mem m => do
    let a := memEA m s
    let (t, s) ← load z a.1 a.2 s
    let u ← readReg z d s
    let s ← store z a.1 a.2 u s
    writeReg z d t s

/-- R203. -/
def loadReg (z : Size) (d : Reg) (src : LdSrc) (s : State) : Comp State :=
  match src with
  | .reg c => do
    let v ← readReg z c s
    writeReg z d v s
  | .mem m => do
    let (v, s) ← load z (ldEA m s).1 (ldEA m s).2 s
    writeReg z d v s

/-- R204: no read precedes the write. -/
def storeReg (z : Size) (m : LdMem) (c : Reg) (s : State) : Comp State := do
  let v ← readReg z c s
  store z (ldEA m s).1 (ldEA m s).2 v s

/-- R209: the start address is taken once; R0 follows R15. -/
def loadMany (sp : Space) : Nat → Word → Reg → State → Comp State
  | 0, _, _, s => .ok s
  | n + 1, a, c, s => do
    let (v, s) ← load .w sp a s
    loadMany sp n (a + 2) (c + 1) (s.setWord c v)

/-- R210. -/
def storeMany (sp : Space) : Nat → Word → Reg → State → Comp State
  | 0, _, _, s => .ok s
  | n + 1, a, c, s => do
    let s ← store .w sp a (s.word c) s
    storeMany sp n (a + 2) (c + 1) s

/-- R211: the operand is in the Program space. -/
def loadRelative (z : Size) (d : Reg) (disp : Word) (s : State) : Comp State := do
  let (v, s) ← load z .prog (relEA disp s) s
  writeReg z d v s

/-- R212: the only store into the Program space. -/
def storeRelative (z : Size) (disp : Word) (c : Reg) (s : State) : Comp State := do
  let v ← readReg z c s
  store z .prog (relEA disp s) v s

/-- R213: the destination must be separate from the stack pointer register. -/
def popTo (z : Size) (d : Dst) (sp : Reg) (s : State) : Comp State := do
  require (popSeparate z sp d) .overlap
  let (v, s) ← load z (dsp sp) (s.word sp) s
  writeDst z d v (s.setWord sp (s.word sp + z.bytes))

/-- R214: the source is taken before the pointer is decremented. -/
def pushValue (z : Size) (sp : Reg) (v : BitVec z.bits) (s : State) : Comp State :=
  let a := s.word sp - z.bytes
  store z (dsp sp) a v (s.setWord sp a)

/-! ### Meanings -/

def execClr (d : Dst) (s : State) : Host.Outcome State Fault Refusal := answer (clear .w d s)
def execClrb (d : Dst) (s : State) : Host.Outcome State Fault Refusal := answer (clear .b d s)
def execEx (d : Reg) (src : Dst) (s : State) : Host.Outcome State Fault Refusal := answer (exchange .w d src s)
def execExb (d : Reg) (src : Dst) (s : State) : Host.Outcome State Fault Refusal := answer (exchange .b d src s)
def execLd (d : Reg) (src : LdSrc) (s : State) : Host.Outcome State Fault Refusal := answer (loadReg .w d src s)
def execLdb (d : Reg) (src : LdSrc) (s : State) : Host.Outcome State Fault Refusal := answer (loadReg .b d src s)
def execLdl (d : Reg) (src : LdSrc) (s : State) : Host.Outcome State Fault Refusal := answer (loadReg .l d src s)
def execLdStore (m : LdMem) (c : Reg) (s : State) : Host.Outcome State Fault Refusal := answer (storeReg .w m c s)
def execLdbStore (m : LdMem) (c : Reg) (s : State) : Host.Outcome State Fault Refusal := answer (storeReg .b m c s)
def execLdlStore (m : LdMem) (c : Reg) (s : State) : Host.Outcome State Fault Refusal := answer (storeReg .l m c s)
/-- R205. -/
def execLdImm (d : Dst) (v : Word) (s : State) : Host.Outcome State Fault Refusal := answer (writeDst .w d v s)
/-- R205. -/
def execLdbImm (d : Dst) (v : Byte) (s : State) : Host.Outcome State Fault Refusal := answer (writeDst .b d v s)
/-- R205, the one-word form. -/
def execLdbImmCompact (d : Reg) (v : Byte) (s : State) : Host.Outcome State Fault Refusal :=
  answer (writeReg .b d v s)
/-- R205. -/
def execLdlImm (d : Reg) (v : Long) (s : State) : Host.Outcome State Fault Refusal := answer (writeReg .l d v s)
/-- R206: the read at the effective address is discarded. -/
def execLda (d : Reg) (m : AddrForm) (s : State) : Host.Outcome State Fault Refusal :=
  answer (writeReg .w d (addrEA m s).2 (discardRead (addrEA m s).1 (addrEA m s).2 s))
/-- R207. -/
def execLdar (d : Reg) (disp : Word) (s : State) : Host.Outcome State Fault Refusal :=
  answer (writeReg .w d (relEA disp s) (discardRead .prog (relEA disp s) s))
/-- R208: the constant is zero-extended. -/
def execLdk (d : Reg) (k : BitVec 4) (s : State) : Host.Outcome State Fault Refusal :=
  answer (writeReg .w d (k.setWidth 16) s)
/-- R209: `n + 1` registers. -/
def execLdmLoad (d : Reg) (m : Mem) (n : BitVec 4) (s : State) : Host.Outcome State Fault Refusal :=
  answer (loadMany (memEA m s).1 (n.toNat + 1) (memEA m s).2 d s)
/-- R210: `n + 1` registers. -/
def execLdmStore (m : Mem) (c : Reg) (n : BitVec 4) (s : State) : Host.Outcome State Fault Refusal :=
  answer (storeMany (memEA m s).1 (n.toNat + 1) (memEA m s).2 c s)
def execLdr (d : Reg) (disp : Word) (s : State) : Host.Outcome State Fault Refusal :=
  answer (loadRelative .w d disp s)
def execLdrb (d : Reg) (disp : Word) (s : State) : Host.Outcome State Fault Refusal :=
  answer (loadRelative .b d disp s)
def execLdrl (d : Reg) (disp : Word) (s : State) : Host.Outcome State Fault Refusal :=
  answer (loadRelative .l d disp s)
def execLdrStore (disp : Word) (c : Reg) (s : State) : Host.Outcome State Fault Refusal :=
  answer (storeRelative .w disp c s)
def execLdrbStore (disp : Word) (c : Reg) (s : State) : Host.Outcome State Fault Refusal :=
  answer (storeRelative .b disp c s)
def execLdrlStore (disp : Word) (c : Reg) (s : State) : Host.Outcome State Fault Refusal :=
  answer (storeRelative .l disp c s)
def execPop (d : Dst) (sp : Reg) (s : State) : Host.Outcome State Fault Refusal := answer (popTo .w d sp s)
def execPopl (d : Dst) (sp : Reg) (s : State) : Host.Outcome State Fault Refusal := answer (popTo .l d sp s)
/-- R214. -/
def execPushw (sp : Reg) (src : Src .w) (s : State) : Host.Outcome State Fault Refusal :=
  answer do
    let (v, s) ← readSrc .w src s
    pushValue .w sp v s
/-- R214. -/
def execPushl (sp : Reg) (src : Dst) (s : State) : Host.Outcome State Fault Refusal :=
  answer do
    let (v, s) ← readDst .l src s
    pushValue .l sp v s

end Sys2Proof.Machine
end

