-- ==== Sys2Proof/Machine/Logic.lean ====
section
/-! DEFINITION. Machine/Logic.lean: AND, COM, OR, TEST, XOR, TCC, BIT, RES, SET and TSET (spec
42_logical_bit.md). -/

namespace Sys2Proof.Machine

/-! ### Shared operations -/

/-- A two-operand logical instruction: the value and `logic_flags` (R400). -/
def logicOp (z : Size) (f : BitVec z.bits → BitVec z.bits → BitVec z.bits) : Binary z :=
  fun a b k => (f a b, Fcw.logic z k (f a b))

/-- R402. -/
def complement (z : Size) : Unary z := fun v k => (~~~v, Fcw.logic z k (~~~v))

/-- R404. -/
def testFlags (z : Size) (v : BitVec z.bits) (k : Fcw) : Fcw := Fcw.logic z k v

/-- A word with bit `b` set and the others clear. -/
def bitMask (n b : Nat) : BitVec n := 1#n <<< b

/-- R410: Z is the complement of the bit. -/
def bitTest {n : Nat} (b : Nat) (v : BitVec n) (k : Fcw) : Fcw := { k with z := !v.getLsbD b }
/-- R412. -/
def bitReset {n : Nat} (b : Nat) (v : BitVec n) (k : Fcw) : BitVec n × Fcw := (v &&& ~~~bitMask n b, k)
/-- R414. -/
def bitSet {n : Nat} (b : Nat) (v : BitVec n) (k : Fcw) : BitVec n × Fcw := (v ||| bitMask n b, k)

/-- R480: S takes the top bit, the operand becomes all ones. -/
def testAndSet {n : Nat} (v : BitVec n) (k : Fcw) : BitVec n × Fcw := (BitVec.allOnes n, { k with s := v.msb })

/-- R406: bit 0 is set when the condition holds; nothing changes otherwise. -/
def testCondition (z : Size) (cc : Cond) (d : Reg) (s : State) : Comp State := do
  let v ← readReg z d s
  if condHolds cc s.fcw then writeReg z d (v ||| 1#z.bits) s else return s

/-- The bit number of a dynamic word bit instruction (R411). -/
def wordBit (c : Reg) (s : State) : Nat := (s.word c).toNat % 16
/-- The bit number of a dynamic byte bit instruction (R411). -/
def byteBit (c : Reg) (s : State) : Nat := (s.word c).toNat % 8

/-! ### Meanings -/

def execAnd (d : Reg) (src : Src .w) (s : State) : Host.Outcome State Fault Refusal :=
  answer (binary .w d src (logicOp .w (· &&& ·)) s)
def execAndb (d : Reg) (src : Src .b) (s : State) : Host.Outcome State Fault Refusal :=
  answer (binary .b d src (logicOp .b (· &&& ·)) s)
def execOr (d : Reg) (src : Src .w) (s : State) : Host.Outcome State Fault Refusal :=
  answer (binary .w d src (logicOp .w (· ||| ·)) s)
def execOrb (d : Reg) (src : Src .b) (s : State) : Host.Outcome State Fault Refusal :=
  answer (binary .b d src (logicOp .b (· ||| ·)) s)
def execXor (d : Reg) (src : Src .w) (s : State) : Host.Outcome State Fault Refusal :=
  answer (binary .w d src (logicOp .w (· ^^^ ·)) s)
def execXorb (d : Reg) (src : Src .b) (s : State) : Host.Outcome State Fault Refusal :=
  answer (binary .b d src (logicOp .b (· ^^^ ·)) s)
def execCom (d : Dst) (s : State) : Host.Outcome State Fault Refusal := answer (modify .w d (complement .w) s)
def execComb (d : Dst) (s : State) : Host.Outcome State Fault Refusal := answer (modify .b d (complement .b) s)
def execTest (d : Dst) (s : State) : Host.Outcome State Fault Refusal := answer (inspect .w d (testFlags .w) s)
def execTestb (d : Dst) (s : State) : Host.Outcome State Fault Refusal := answer (inspect .b d (testFlags .b) s)
def execTestl (d : Dst) (s : State) : Host.Outcome State Fault Refusal := answer (inspect .l d (testFlags .l) s)
def execTcc (cc : Cond) (d : Reg) (s : State) : Host.Outcome State Fault Refusal := answer (testCondition .w cc d s)
def execTccb (cc : Cond) (d : Reg) (s : State) : Host.Outcome State Fault Refusal := answer (testCondition .b cc d s)

def execBit (d : Dst) (n : BitVec 4) (s : State) : Host.Outcome State Fault Refusal :=
  answer (inspect .w d (bitTest n.toNat) s)
def execBitb (d : Dst) (n : BitVec 3) (s : State) : Host.Outcome State Fault Refusal :=
  answer (inspect .b d (bitTest n.toNat) s)
/-- R411: the bit number is in a word register. -/
def execBitDyn (d c : Reg) (s : State) : Host.Outcome State Fault Refusal :=
  answer (inspect .w (.reg d) (bitTest (wordBit c s)) s)
/-- R411. -/
def execBitbDyn (d c : Reg) (s : State) : Host.Outcome State Fault Refusal :=
  answer (inspect .b (.reg d) (bitTest (byteBit c s)) s)
def execResBit (d : Dst) (n : BitVec 4) (s : State) : Host.Outcome State Fault Refusal :=
  answer (modify .w d (bitReset n.toNat) s)
def execResBitB (d : Dst) (n : BitVec 3) (s : State) : Host.Outcome State Fault Refusal :=
  answer (modify .b d (bitReset n.toNat) s)
/-- R413. -/
def execResBitDyn (d c : Reg) (s : State) : Host.Outcome State Fault Refusal :=
  answer (modify .w (.reg d) (bitReset (wordBit c s)) s)
/-- R413. -/
def execResBitBDyn (d c : Reg) (s : State) : Host.Outcome State Fault Refusal :=
  answer (modify .b (.reg d) (bitReset (byteBit c s)) s)
def execSetBit (d : Dst) (n : BitVec 4) (s : State) : Host.Outcome State Fault Refusal :=
  answer (modify .w d (bitSet n.toNat) s)
def execSetBitB (d : Dst) (n : BitVec 3) (s : State) : Host.Outcome State Fault Refusal :=
  answer (modify .b d (bitSet n.toNat) s)
/-- R415. -/
def execSetBitDyn (d c : Reg) (s : State) : Host.Outcome State Fault Refusal :=
  answer (modify .w (.reg d) (bitSet (wordBit c s)) s)
/-- R415. -/
def execSetBitBDyn (d c : Reg) (s : State) : Host.Outcome State Fault Refusal :=
  answer (modify .b (.reg d) (bitSet (byteBit c s)) s)
/-- R480: one agent cannot tell the read and the write from an atomic pair. -/
def execTset (d : Dst) (s : State) : Host.Outcome State Fault Refusal := answer (modify .w d testAndSet s)
/-- R480. -/
def execTsetb (d : Dst) (s : State) : Host.Outcome State Fault Refusal := answer (modify .b d testAndSet s)

end Sys2Proof.Machine
end

