-- ==== Sys2Proof/Machine/Shift.lean ====
section
/-! DEFINITION. Machine/Shift.lean: rotates, digit rotates, dynamic and static shifts (spec
43_shift_rotate.md). -/

namespace Sys2Proof.Machine

/-! ### Shared operations -/

/-- A rotate by one or two positions (R501 to R504). -/
def rotate (z : Size) (d : Reg) (two : Bool) (step : Shifting z.bits → Shifting z.bits) (s : State) : Comp State :=
  modifyReg z d (shiftBy step s.cfg.shiftV (if two then 2 else 1)) s

/-- A shift by `k` positions, `k` at least 1; a count beyond the width is cut down to one that gives the same
(R507). -/
def shiftSome (z : Size) (k : Nat) (step : Shifting z.bits → Shifting z.bits) (rule : ShiftV) : Unary z :=
  shiftBy step rule (shiftCount z.bits k)

/-- A dynamic shift: the whole register is the signed count; a positive count shifts left, a negative one right by
`right`; a zero count clears C except for long operands (R510, R511). -/
def shiftDynamic (z : Size) (right : Shifting z.bits → Shifting z.bits) (rule : ShiftV) (count : Word) : Unary z :=
  let k := count.toInt
  if k = 0 then shiftZero (z != .l)
  else if 0 < k then shiftSome z k.toNat shlStep rule
  else shiftSome z (-k).toNat right rule

/-- A static left shift by `k`: a zero count leaves C, or clears it for bytes and words under
`STATIC_SHIFT0_CLEARS_C` (R520, R521). -/
def shiftLeft (z : Size) (k : Nat) (cfg : Cfg) : Unary z :=
  if k = 0 then shiftZero (cfg.staticShift0ClearsC && z != .l)
  else shiftSome z k shlStep cfg.shiftV

/-- The positions of a right shift whose count word has the bits `q` below its sign: the negated count (R522). -/
def rightPositions {n : Nat} (q : BitVec n) : Nat := 2 ^ n - q.toNat

/-- RLDB and RRDB: both registers are written, so they must differ (R505, R506). -/
def rotateDigits (d c : Reg) (f : Byte → Byte → Byte × Byte) (s : State) : Comp State := do
  require (d != c) .overlap
  let (x, y) := f (s.byte d) (s.byte c)
  return ((s.setByte d x).setByte c y).setFcw { s.fcw with z := x == 0 }

/-- R505: `{a[7:4], b[7:4]}` and `{b[3:0], a[3:0]}`. -/
def digitsLeft (a b : Byte) : Byte × Byte :=
  (a.extractLsb' 4 4 ++ b.extractLsb' 4 4, b.extractLsb' 0 4 ++ a.extractLsb' 0 4)

/-- R506: `{a[7:4], b[3:0]}` and `{a[3:0], b[7:4]}`. -/
def digitsRight (a b : Byte) : Byte × Byte :=
  (a.extractLsb' 4 4 ++ b.extractLsb' 0 4, a.extractLsb' 0 4 ++ b.extractLsb' 4 4)

/-! ### Meanings -/

def execRl (d : Reg) (two : Bool) (s : State) : Host.Outcome State Fault Refusal := answer (rotate .w d two rlStep s)
def execRlb (d : Reg) (two : Bool) (s : State) : Host.Outcome State Fault Refusal := answer (rotate .b d two rlStep s)
def execRlc (d : Reg) (two : Bool) (s : State) : Host.Outcome State Fault Refusal := answer (rotate .w d two rlcStep s)
def execRlcb (d : Reg) (two : Bool) (s : State) : Host.Outcome State Fault Refusal :=
  answer (rotate .b d two rlcStep s)
def execRr (d : Reg) (two : Bool) (s : State) : Host.Outcome State Fault Refusal := answer (rotate .w d two rrStep s)
def execRrb (d : Reg) (two : Bool) (s : State) : Host.Outcome State Fault Refusal := answer (rotate .b d two rrStep s)
def execRrc (d : Reg) (two : Bool) (s : State) : Host.Outcome State Fault Refusal := answer (rotate .w d two rrcStep s)
def execRrcb (d : Reg) (two : Bool) (s : State) : Host.Outcome State Fault Refusal :=
  answer (rotate .b d two rrcStep s)
def execRldb (d c : Reg) (s : State) : Host.Outcome State Fault Refusal := answer (rotateDigits d c digitsLeft s)
def execRrdb (d c : Reg) (s : State) : Host.Outcome State Fault Refusal := answer (rotateDigits d c digitsRight s)

def execSda (d c : Reg) (s : State) : Host.Outcome State Fault Refusal :=
  answer (modifyReg .w d (shiftDynamic .w sarStep s.cfg.shiftV (s.word c)) s)
def execSdab (d c : Reg) (s : State) : Host.Outcome State Fault Refusal :=
  answer (modifyReg .b d (shiftDynamic .b sarStep s.cfg.shiftV (s.word c)) s)
def execSdal (d c : Reg) (s : State) : Host.Outcome State Fault Refusal :=
  answer (modifyReg .l d (shiftDynamic .l sarStep s.cfg.shiftV (s.word c)) s)
def execSdl (d c : Reg) (s : State) : Host.Outcome State Fault Refusal :=
  answer (modifyReg .w d (shiftDynamic .w shrStep s.cfg.shiftV (s.word c)) s)
def execSdlb (d c : Reg) (s : State) : Host.Outcome State Fault Refusal :=
  answer (modifyReg .b d (shiftDynamic .b shrStep s.cfg.shiftV (s.word c)) s)
def execSdll (d c : Reg) (s : State) : Host.Outcome State Fault Refusal :=
  answer (modifyReg .l d (shiftDynamic .l shrStep s.cfg.shiftV (s.word c)) s)

def execSla (d : Reg) (q : BitVec 15) (s : State) : Host.Outcome State Fault Refusal :=
  answer (modifyReg .w d (shiftLeft .w q.toNat s.cfg) s)
def execSlab (d : Reg) (q : BitVec 7) (s : State) : Host.Outcome State Fault Refusal :=
  answer (modifyReg .b d (shiftLeft .b q.toNat s.cfg) s)
def execSlal (d : Reg) (q : BitVec 15) (s : State) : Host.Outcome State Fault Refusal :=
  answer (modifyReg .l d (shiftLeft .l q.toNat s.cfg) s)
/-- R521: every result and flag is that of SLA. -/
def execSll (d : Reg) (q : BitVec 15) (s : State) : Host.Outcome State Fault Refusal :=
  answer (modifyReg .w d (shiftLeft .w q.toNat s.cfg) s)
/-- R521. -/
def execSllb (d : Reg) (q : BitVec 7) (s : State) : Host.Outcome State Fault Refusal :=
  answer (modifyReg .b d (shiftLeft .b q.toNat s.cfg) s)
/-- R521. -/
def execSlll (d : Reg) (q : BitVec 15) (s : State) : Host.Outcome State Fault Refusal :=
  answer (modifyReg .l d (shiftLeft .l q.toNat s.cfg) s)
/-- R522: V is cleared, since an arithmetic right shift keeps the sign (R500). -/
def execSra (d : Reg) (q : BitVec 15) (s : State) : Host.Outcome State Fault Refusal :=
  answer (modifyReg .w d (shiftSome .w (rightPositions q) sarStep s.cfg.shiftV) s)
/-- R522. -/
def execSrab (d : Reg) (q : BitVec 7) (s : State) : Host.Outcome State Fault Refusal :=
  answer (modifyReg .b d (shiftSome .b (rightPositions q) sarStep s.cfg.shiftV) s)
/-- R522. -/
def execSral (d : Reg) (q : BitVec 15) (s : State) : Host.Outcome State Fault Refusal :=
  answer (modifyReg .l d (shiftSome .l (rightPositions q) sarStep s.cfg.shiftV) s)
/-- R523. -/
def execSrl (d : Reg) (q : BitVec 15) (s : State) : Host.Outcome State Fault Refusal :=
  answer (modifyReg .w d (shiftSome .w (rightPositions q) shrStep s.cfg.shiftV) s)
/-- R523. -/
def execSrlb (d : Reg) (q : BitVec 7) (s : State) : Host.Outcome State Fault Refusal :=
  answer (modifyReg .b d (shiftSome .b (rightPositions q) shrStep s.cfg.shiftV) s)
/-- R523. -/
def execSrll (d : Reg) (q : BitVec 15) (s : State) : Host.Outcome State Fault Refusal :=
  answer (modifyReg .l d (shiftSome .l (rightPositions q) shrStep s.cfg.shiftV) s)

end Sys2Proof.Machine
end

