-- ==== Sys2Proof/Machine/Dispatch.lean ====
section
/-! DEFINITION. Machine/Dispatch.lean: one arm per constructor of Instr, each one direct call of its meaning. -/

namespace Sys2Proof.Machine

def exec (i : Instr) (s : State) : Host.Outcome State Fault Refusal :=
  match i with
  | .clr dst => Sys2Proof.Machine.execClr dst s
  | .clrb dst => Sys2Proof.Machine.execClrb dst s
  | .ex d src => Sys2Proof.Machine.execEx d src s
  | .exb d src => Sys2Proof.Machine.execExb d src s
  | .ld d src => Sys2Proof.Machine.execLd d src s
  | .ldb d src => Sys2Proof.Machine.execLdb d src s
  | .ldl d src => Sys2Proof.Machine.execLdl d src s
  | .ldStore dst c => Sys2Proof.Machine.execLdStore dst c s
  | .ldbStore dst c => Sys2Proof.Machine.execLdbStore dst c s
  | .ldlStore dst c => Sys2Proof.Machine.execLdlStore dst c s
  | .ldImm dst data => Sys2Proof.Machine.execLdImm dst data s
  | .ldbImm dst data => Sys2Proof.Machine.execLdbImm dst data s
  | .ldbImmCompact d data => Sys2Proof.Machine.execLdbImmCompact d data s
  | .ldlImm d data => Sys2Proof.Machine.execLdlImm d data s
  | .lda d src => Sys2Proof.Machine.execLda d src s
  | .ldar d disp => Sys2Proof.Machine.execLdar d disp s
  | .ldk d k => Sys2Proof.Machine.execLdk d k s
  | .ldmLoad d src n => Sys2Proof.Machine.execLdmLoad d src n s
  | .ldmStore dst c n => Sys2Proof.Machine.execLdmStore dst c n s
  | .ldr d disp => Sys2Proof.Machine.execLdr d disp s
  | .ldrb d disp => Sys2Proof.Machine.execLdrb d disp s
  | .ldrl d disp => Sys2Proof.Machine.execLdrl d disp s
  | .ldrStore disp c => Sys2Proof.Machine.execLdrStore disp c s
  | .ldrbStore disp c => Sys2Proof.Machine.execLdrbStore disp c s
  | .ldrlStore disp c => Sys2Proof.Machine.execLdrlStore disp c s
  | .pop dst sp => Sys2Proof.Machine.execPop dst sp s
  | .popl dst sp => Sys2Proof.Machine.execPopl dst sp s
  | .pushw sp src => Sys2Proof.Machine.execPushw sp src s
  | .pushl sp src => Sys2Proof.Machine.execPushl sp src s
  | .adc d c => Sys2Proof.Machine.execAdc d c s
  | .adcb d c => Sys2Proof.Machine.execAdcb d c s
  | .sbc d c => Sys2Proof.Machine.execSbc d c s
  | .sbcb d c => Sys2Proof.Machine.execSbcb d c s
  | .add d src => Sys2Proof.Machine.execAdd d src s
  | .addb d src => Sys2Proof.Machine.execAddb d src s
  | .addl d src => Sys2Proof.Machine.execAddl d src s
  | .cp d src => Sys2Proof.Machine.execCp d src s
  | .cpb d src => Sys2Proof.Machine.execCpb d src s
  | .cpl d src => Sys2Proof.Machine.execCpl d src s
  | .sub d src => Sys2Proof.Machine.execSub d src s
  | .subb d src => Sys2Proof.Machine.execSubb d src s
  | .subl d src => Sys2Proof.Machine.execSubl d src s
  | .cpImm dst data => Sys2Proof.Machine.execCpImm dst data s
  | .cpbImm dst data => Sys2Proof.Machine.execCpbImm dst data s
  | .dab d => Sys2Proof.Machine.execDab d s
  | .dec dst n => Sys2Proof.Machine.execDec dst n s
  | .decb dst n => Sys2Proof.Machine.execDecb dst n s
  | .inc dst n => Sys2Proof.Machine.execInc dst n s
  | .incb dst n => Sys2Proof.Machine.execIncb dst n s
  | .div d src => Sys2Proof.Machine.execDiv d src s
  | .divl d src => Sys2Proof.Machine.execDivl d src s
  | .mult d src => Sys2Proof.Machine.execMult d src s
  | .multl d src => Sys2Proof.Machine.execMultl d src s
  | .extsb d => Sys2Proof.Machine.execExtsb d s
  | .exts d => Sys2Proof.Machine.execExts d s
  | .extsl d => Sys2Proof.Machine.execExtsl d s
  | .neg dst => Sys2Proof.Machine.execNeg dst s
  | .negb dst => Sys2Proof.Machine.execNegb dst s
  | .and d src => Sys2Proof.Machine.execAnd d src s
  | .andb d src => Sys2Proof.Machine.execAndb d src s
  | .or d src => Sys2Proof.Machine.execOr d src s
  | .orb d src => Sys2Proof.Machine.execOrb d src s
  | .xor d src => Sys2Proof.Machine.execXor d src s
  | .xorb d src => Sys2Proof.Machine.execXorb d src s
  | .com dst => Sys2Proof.Machine.execCom dst s
  | .comb dst => Sys2Proof.Machine.execComb dst s
  | .test dst => Sys2Proof.Machine.execTest dst s
  | .testb dst => Sys2Proof.Machine.execTestb dst s
  | .testl dst => Sys2Proof.Machine.execTestl dst s
  | .tcc cc d => Sys2Proof.Machine.execTcc cc d s
  | .tccb cc d => Sys2Proof.Machine.execTccb cc d s
  | .bit dst n => Sys2Proof.Machine.execBit dst n s
  | .bitb dst n => Sys2Proof.Machine.execBitb dst n s
  | .bitDyn d c => Sys2Proof.Machine.execBitDyn d c s
  | .bitbDyn d c => Sys2Proof.Machine.execBitbDyn d c s
  | .resBit dst n => Sys2Proof.Machine.execResBit dst n s
  | .resBitB dst n => Sys2Proof.Machine.execResBitB dst n s
  | .resBitDyn d c => Sys2Proof.Machine.execResBitDyn d c s
  | .resBitBDyn d c => Sys2Proof.Machine.execResBitBDyn d c s
  | .setBit dst n => Sys2Proof.Machine.execSetBit dst n s
  | .setBitB dst n => Sys2Proof.Machine.execSetBitB dst n s
  | .setBitDyn d c => Sys2Proof.Machine.execSetBitDyn d c s
  | .setBitBDyn d c => Sys2Proof.Machine.execSetBitBDyn d c s
  | .tset dst => Sys2Proof.Machine.execTset dst s
  | .tsetb dst => Sys2Proof.Machine.execTsetb dst s
  | .rl d two => Sys2Proof.Machine.execRl d two s
  | .rlb d two => Sys2Proof.Machine.execRlb d two s
  | .rlc d two => Sys2Proof.Machine.execRlc d two s
  | .rlcb d two => Sys2Proof.Machine.execRlcb d two s
  | .rr d two => Sys2Proof.Machine.execRr d two s
  | .rrb d two => Sys2Proof.Machine.execRrb d two s
  | .rrc d two => Sys2Proof.Machine.execRrc d two s
  | .rrcb d two => Sys2Proof.Machine.execRrcb d two s
  | .rldb d c => Sys2Proof.Machine.execRldb d c s
  | .rrdb d c => Sys2Proof.Machine.execRrdb d c s
  | .sda d c => Sys2Proof.Machine.execSda d c s
  | .sdab d c => Sys2Proof.Machine.execSdab d c s
  | .sdal d c => Sys2Proof.Machine.execSdal d c s
  | .sdl d c => Sys2Proof.Machine.execSdl d c s
  | .sdlb d c => Sys2Proof.Machine.execSdlb d c s
  | .sdll d c => Sys2Proof.Machine.execSdll d c s
  | .sla d q => Sys2Proof.Machine.execSla d q s
  | .slab d q => Sys2Proof.Machine.execSlab d q s
  | .slal d q => Sys2Proof.Machine.execSlal d q s
  | .sll d q => Sys2Proof.Machine.execSll d q s
  | .sllb d q => Sys2Proof.Machine.execSllb d q s
  | .slll d q => Sys2Proof.Machine.execSlll d q s
  | .sra d q => Sys2Proof.Machine.execSra d q s
  | .srab d q => Sys2Proof.Machine.execSrab d q s
  | .sral d q => Sys2Proof.Machine.execSral d q s
  | .srl d q => Sys2Proof.Machine.execSrl d q s
  | .srlb d q => Sys2Proof.Machine.execSrlb d q s
  | .srll d q => Sys2Proof.Machine.execSrll d q s
  | .call dst => Sys2Proof.Machine.execCall dst s
  | .calr e => Sys2Proof.Machine.execCalr e s
  | .djnz r e => Sys2Proof.Machine.execDjnz r e s
  | .dbjnz r e => Sys2Proof.Machine.execDbjnz r e s
  | .jp cc dst => Sys2Proof.Machine.execJp cc dst s
  | .jr cc e => Sys2Proof.Machine.execJr cc e s
  | .ret cc => Sys2Proof.Machine.execRet cc s
  | .cpd d c r cc => Sys2Proof.Machine.execCpd d c r cc s
  | .cpdb d c r cc => Sys2Proof.Machine.execCpdb d c r cc s
  | .cpdr d c r cc => Sys2Proof.Machine.execCpdr d c r cc s
  | .cpdrb d c r cc => Sys2Proof.Machine.execCpdrb d c r cc s
  | .cpi d c r cc => Sys2Proof.Machine.execCpi d c r cc s
  | .cpib d c r cc => Sys2Proof.Machine.execCpib d c r cc s
  | .cpir d c r cc => Sys2Proof.Machine.execCpir d c r cc s
  | .cpirb d c r cc => Sys2Proof.Machine.execCpirb d c r cc s
  | .cpsd d c r cc => Sys2Proof.Machine.execCpsd d c r cc s
  | .cpsdb d c r cc => Sys2Proof.Machine.execCpsdb d c r cc s
  | .cpsdr d c r cc => Sys2Proof.Machine.execCpsdr d c r cc s
  | .cpsdrb d c r cc => Sys2Proof.Machine.execCpsdrb d c r cc s
  | .cpsi d c r cc => Sys2Proof.Machine.execCpsi d c r cc s
  | .cpsib d c r cc => Sys2Proof.Machine.execCpsib d c r cc s
  | .cpsir d c r cc => Sys2Proof.Machine.execCpsir d c r cc s
  | .cpsirb d c r cc => Sys2Proof.Machine.execCpsirb d c r cc s
  | .ldd d c r => Sys2Proof.Machine.execLdd d c r s
  | .lddb d c r => Sys2Proof.Machine.execLddb d c r s
  | .lddr d c r cc => Sys2Proof.Machine.execLddr d c r cc s
  | .lddrb d c r cc => Sys2Proof.Machine.execLddrb d c r cc s
  | .ldi d c r => Sys2Proof.Machine.execLdi d c r s
  | .ldib d c r => Sys2Proof.Machine.execLdib d c r s
  | .ldir d c r cc => Sys2Proof.Machine.execLdir d c r cc s
  | .ldirb d c r cc => Sys2Proof.Machine.execLdirb d c r cc s
  | .trdb d c r => Sys2Proof.Machine.execTrdb d c r s
  | .trdrb d c r => Sys2Proof.Machine.execTrdrb d c r s
  | .trib d c r => Sys2Proof.Machine.execTrib d c r s
  | .trirb d c r => Sys2Proof.Machine.execTrirb d c r s
  | .trtdb d c r => Sys2Proof.Machine.execTrtdb d c r s
  | .trtdrb d c r => Sys2Proof.Machine.execTrtdrb d c r s
  | .trtib d c r => Sys2Proof.Machine.execTrtib d c r s
  | .trtirb d c r => Sys2Proof.Machine.execTrtirb d c r s
  | .inp d src => Sys2Proof.Machine.execInp d src s
  | .inpb d src => Sys2Proof.Machine.execInpb d src s
  | .sin d port => Sys2Proof.Machine.execSin d port s
  | .sinb d port => Sys2Proof.Machine.execSinb d port s
  | .ind d c r => Sys2Proof.Machine.execInd d c r s
  | .indb d c r => Sys2Proof.Machine.execIndb d c r s
  | .sind d c r => Sys2Proof.Machine.execSind d c r s
  | .sindb d c r => Sys2Proof.Machine.execSindb d c r s
  | .indr d c r cc => Sys2Proof.Machine.execIndr d c r cc s
  | .indrb d c r cc => Sys2Proof.Machine.execIndrb d c r cc s
  | .sindr d c r cc => Sys2Proof.Machine.execSindr d c r cc s
  | .sindrb d c r cc => Sys2Proof.Machine.execSindrb d c r cc s
  | .ini d c r => Sys2Proof.Machine.execIni d c r s
  | .inib d c r => Sys2Proof.Machine.execInib d c r s
  | .sini d c r => Sys2Proof.Machine.execSini d c r s
  | .sinib d c r => Sys2Proof.Machine.execSinib d c r s
  | .inir d c r cc => Sys2Proof.Machine.execInir d c r cc s
  | .inirb d c r cc => Sys2Proof.Machine.execInirb d c r cc s
  | .sinir d c r cc => Sys2Proof.Machine.execSinir d c r cc s
  | .sinirb d c r cc => Sys2Proof.Machine.execSinirb d c r cc s
  | .outp dst c => Sys2Proof.Machine.execOutp dst c s
  | .outpb dst c => Sys2Proof.Machine.execOutpb dst c s
  | .sout port c => Sys2Proof.Machine.execSout port c s
  | .soutb port c => Sys2Proof.Machine.execSoutb port c s
  | .outd d c r => Sys2Proof.Machine.execOutd d c r s
  | .outdb d c r => Sys2Proof.Machine.execOutdb d c r s
  | .soutd d c r => Sys2Proof.Machine.execSoutd d c r s
  | .soutdb d c r => Sys2Proof.Machine.execSoutdb d c r s
  | .otdr d c r cc => Sys2Proof.Machine.execOtdr d c r cc s
  | .otdrb d c r cc => Sys2Proof.Machine.execOtdrb d c r cc s
  | .sotdr d c r cc => Sys2Proof.Machine.execSotdr d c r cc s
  | .sotdrb d c r cc => Sys2Proof.Machine.execSotdrb d c r cc s
  | .outi d c r => Sys2Proof.Machine.execOuti d c r s
  | .outib d c r => Sys2Proof.Machine.execOutib d c r s
  | .souti d c r => Sys2Proof.Machine.execSouti d c r s
  | .soutib d c r => Sys2Proof.Machine.execSoutib d c r s
  | .otir d c r cc => Sys2Proof.Machine.execOtir d c r cc s
  | .otirb d c r cc => Sys2Proof.Machine.execOtirb d c r cc s
  | .sotir d c r cc => Sys2Proof.Machine.execSotir d c r cc s
  | .sotirb d c r cc => Sys2Proof.Machine.execSotirb d c r cc s
  | .comflg f => Sys2Proof.Machine.execComflg f s
  | .resflg f => Sys2Proof.Machine.execResflg f s
  | .setflg f => Sys2Proof.Machine.execSetflg f s
  | .nop => Sys2Proof.Machine.execNop s
  | .di v => Sys2Proof.Machine.execDi v s
  | .ei v => Sys2Proof.Machine.execEi v s
  | .halt => Sys2Proof.Machine.execHalt s
  | .iret => Sys2Proof.Machine.execIret s
  | .sc src => Sys2Proof.Machine.execSc src s
  | .ldctlTo ctl c => Sys2Proof.Machine.execLdctlTo ctl c s
  | .ldctlFrom d ctl => Sys2Proof.Machine.execLdctlFrom d ctl s
  | .ldctlbFrom d => Sys2Proof.Machine.execLdctlbFrom d s
  | .ldctlbTo c => Sys2Proof.Machine.execLdctlbTo c s
  | .ldps src => Sys2Proof.Machine.execLdps src s
  | .mset => Sys2Proof.Machine.execMset s
  | .mres => Sys2Proof.Machine.execMres s
  | .mbit => Sys2Proof.Machine.execMbit s
  | .mreq d => Sys2Proof.Machine.execMreq d s
  | .ldFromEpu d w1 id hi lo n => Sys2Proof.Machine.execLdFromEpu d w1 id hi lo n s
  | .ldFromEpuMem dst id x n => Sys2Proof.Machine.execLdFromEpuMem dst id x n s
  | .ldToEpu c w1 id hi lo n => Sys2Proof.Machine.execLdToEpu c w1 id hi lo n s
  | .ldToEpuMem src id x n => Sys2Proof.Machine.execLdToEpuMem src id x n s
  | .ldbFcwEpu w1 id hi lo => Sys2Proof.Machine.execLdbFcwEpu w1 id hi lo s
  | .ldbEpuFcw w1 id hi lo => Sys2Proof.Machine.execLdbEpuFcw w1 id hi lo s
  | .epui w1 id x n => Sys2Proof.Machine.execEpui w1 id x n s

end Sys2Proof.Machine
end

