-- ==== Sys2Proof/Machine/Cycle.lean ====
section
/-! DEFINITION. Machine/Cycle.lean: one step of the machine (spec 60_exceptions.md R1003, R1008, R1009, R1030,
70_reset_and_hazards.md R1100): the pins, reset, an accepted interrupt, the halt state, or one instruction. -/

namespace Sys2Proof.Machine

/-! ### First words that trap -/

/-- The word begins a documented instruction; a word that does not is refused, in either mode (R157, D19). -/
def beginsInstruction (w : Word) : Bool :=
  match decode1 w with
  | .instr _ => true
  | .bad _ => false
  | .more _ => true

/-- The trap a first word raises: Unimplemented before Extended before Privileged (R1009). The extended space is part
of the unimplemented one with `REV = Rev1` (R950) and traps with EPA = 0 otherwise (R951). A privileged instruction traps
on its first word, whatever its second word is (R1003, R1030). -/
def firstWordTrap (w : Word) (s : State) : Option Event :=
  if unimplemented w || (extendedWord w && s.cfg.rev == .rev1) then some .systemCall
  else if extendedWord w && !s.fcw.epa then some .extended
  else if beginsInstruction w && privilegedWord s.cfg.privSet w && !s.fcw.sys then some .privileged
  else none

/-! ### Fetching an instruction -/

/-- Fetches a later word of the instruction, which the CPU then holds (R99). -/
def fetchLater (s : State) : Comp (Word × State) := do
  let (w, s) ← fetch .program s
  return (w, { s with ir2 := w })

/-- Fetches the words a decoding still asks for; all of them are fetched before the instruction runs (R99). -/
def fetchRest : Decoding → State → Comp (Instr × State)
  | .instr i, s => .ok (i, s)
  | .bad e, _ => .error (.refuse (.undecodable e))
  | .more k, s =>
    match fetchLater s with
    | .ok (w, s) => fetchRest (k w) s
    | .error e => .error e

/-- Fetches the first word into the instruction register (R54). -/
def fetchFirst (s : State) : Comp (Word × State) := do
  let (w, s) ← fetch .firstWord s
  return (w, { s with ir := w })

/-- One instruction: a first word that traps starts the entry sequence with the address after it (R1012) and no
further word is fetched; otherwise the instruction is fetched whole and runs. -/
def runInstruction (s : State) : Host.Outcome State Fault Refusal :=
  match fetchFirst s with
  | .error e => answer (.error e)
  | .ok (w, s) =>
    match firstWordTrap w s with
    | some e => answer (enter e s.pc w s)
    | none =>
      match fetchRest (decode1 w) s with
      | .error e => answer (.error e)
      | .ok (i, s) => exec i s

/-- The next iteration of the repeating block instruction whose two words the CPU holds: nothing is fetched (R99, R652,
D28). -/
def resume (s : State) : Host.Outcome State Fault Refusal :=
  match decodeWords [s.ir, s.ir2] with
  | .ok (i, []) => exec i { s with pc := s.pc + 4, repeating := false }
  | _ => runInstruction { s with repeating := false }

/-! ### One step -/

/-- A falling edge on NMIB sets the request latch (R1005). -/
def latchNmi (p : PinSample) (s : State) : State := { s with nmiPending := s.nmiPending || p.nmiEdge }

/-- One step with the pins `p` and RESETF inactive: after a reset the two fetches of R1100, and an NMI edge of this step
comes after it (R1105); then an accepted interrupt, which is tested between instructions, between the iterations of a
block instruction, in HALT and after every entry sequence (R1008); a halted CPU idles one internal cycle, with R_WB and
B_WB as R1102 gives them for status 0000 (R856; DESIGN CHOICE, log entry 29); otherwise one iteration of the repeating
block instruction in progress, or one instruction. -/
def work (p : PinSample) (s : State) : Host.Outcome State Fault Refusal :=
  if s.resetting then answer ((resetSequence s).map (latchNmi p))
  else
    let s := latchNmi p s
    match accepted p s with
    | some e => answer (interrupt e p.ident s)
    | none =>
      if s.halted then .next (s.note (.idle s.fcw.sys true false))
      else if s.repeating then resume s
      else runInstruction s

/-! ### A reset inside a step (R1100, D12; log entry 23) -/

/-- The step fetches an instruction: nothing that `work` tests comes before it. -/
def State.begins (p : PinSample) (s : State) : Bool :=
  !s.resetting && (accepted p (latchNmi p s)).isNone && !s.halted && !s.repeating

/-- The number of words fetched for a decoding, from the later word at `a` on. -/
def laterWords : Decoding → Word → State → Nat
  | .instr _, _, _ => 0
  | .bad _, _, _ => 0
  | .more k, a, s => 1 + laterWords (k (s.peekWord .prog (evenAddress a))) (a + 2) s

/-- The number of words a step that fetches an instruction fetches: one, if the first word traps (R1012). -/
def State.fetchedWords (s : State) : Nat :=
  let w := s.peekWord .prog (evenAddress s.pc)
  if (firstWordTrap w s).isSome then 1 else 1 + laterWords (decode1 w) (s.pc + 2) s

/-- The first `k` fetches of an instruction. -/
def fetchOnly : Nat → Status → State → Comp State
  | 0, _, s => .ok s
  | k + 1, st, s => do
    let (_, s) ← fetch st s
    fetchOnly k .program s

/-- The step with its points kept and with every word access made: whether an odd address stops the step is for the reset
to say, which may come first. -/
def traced (s : State) : State := { s with cfg := { s.cfg with misaligned := .ignoreA0 }, trace := some [] }

/-- A step after whose first `k` points the reset comes: a stop that comes before that (R86, R87, R157) stands, and one
that would come later is not met. -/
def interruptedAfter (k : Nat) (p : PinSample) (s : State) : Host.Outcome State Fault Refusal :=
  if s.begins p && decide (k < s.fetchedWords) then answer ((fetchOnly k .firstWord s).map resetState)
  else
    match work p (traced s) with
    | .fault r => .fault r
    | .refused r => .refused r
    | .next t =>
      match s.cfg.misaligned, oddBefore k t with
      | .refuse, some a => .fault (.misaligned a)
      | _, _ => .next (resetState (abandoned k s t))

/-- One step with the pins `p`: reset comes before everything else, and in the middle of a step it abandons what the
step was doing (R1100, D12). -/
def stepWith (p : PinSample) (s : State) : Host.Outcome State Fault Refusal :=
  match p.reset with
  | .released => work p s
  | .asserted => .next (resetState s)
  | .during k => interruptedAfter k p s

/-- One step of the machine. -/
def cycle (s : State) : Host.Outcome State Fault Refusal := stepWith (takePins s).1 (takePins s).2

/-- Stores words at ascending addresses of the Program space. -/
def placeWords : List Word → Word → State → State
  | [], _, s => s
  | w :: ws, a, s => placeWords ws (a + 2) (s.pokeWord .prog a w)

/-- An instruction placed where the next step fetches, with nothing pending that would come before it. -/
def placeInstruction (ws : List Word) (s : State) : State :=
  { placeWords ws s.pc s with
    halted := false, nmiPending := false, resetting := false, repeating := false, pins := [] }

end Sys2Proof.Machine
end

