-- ==== Sys2Proof/Machine/Step.lean ====
section
/-! DEFINITION. Machine/Step.lean: the step function and the placing of an instruction where it fetches. -/

namespace Sys2Proof.Machine

/-- One step of the machine. -/
def step (s : State) : Host.Outcome State Fault Refusal := cycle s

/-- `s` with the instruction whose bits are `w` (numbered as spec/opcode_table.json numbers them) stored at PC in the
Program space, so that the next step runs it. It stands for the loading of a program from outside (log entry 24). -/
def State.withFetchWord (s : State) (_nbits w : Nat) : State := placeInstruction (tableWords w) s

end Sys2Proof.Machine
end

