-- ==== Sys2Proof/Safety.lean ====
section
/-! DEFINITION. Safety.lean: the invariant of the state and the terms the claims use: when an operand can be accessed,
what it holds, what a completed access leaves, and the flag rules of R300, R400 and R500 written with integers. -/

namespace Sys2Proof.Machine

/-! ### The invariant -/

/-- What every step keeps: memory in canonical form; the low byte of PSAP zero (R43); with `REV = Rev1`, SYS = 1 and
EPA = 0 (R39, R40); and the positions of the FCW bits, a parameter, apart from each other (R35). -/
def State.Inv (s : State) : Prop :=
  Memory.wf s.mem = true ∧ loByte s.psap = 0 ∧ (s.cfg.rev = .rev1 → s.fcw.sys = true ∧ s.fcw.epa = false) ∧
    FcwBits.ok s.cfg.fcwBits = true

/-- No reset in this step or before it whose fetches are still to be made. -/
def State.running (s : State) : Bool := (takePins s).1.reset == .released && !s.resetting

/-- The interrupt that this step accepts, if RESETF lets it. -/
def State.request (s : State) : Option Event := accepted (takePins s).1 (latchNmi (takePins s).1 (takePins s).2)

/-- The environment asks for nothing at this step: no reset, no accepted request, and the CPU is not halted. -/
def State.quiet (s : State) : Bool := s.running && !s.halted && s.request.isNone

/-- The step fetches an instruction: nothing is asked for, and no block instruction is between two iterations. -/
def State.fetches (s : State) : Bool := s.quiet && !s.repeating

/-- A fetch at PC does not stop (R87). -/
def State.pcReady (s : State) : Bool := !s.pc.getLsbD 0 || s.cfg.oddPc == .ignoreA0

/-- What the words at PC decode to; no instruction has more than three. -/
def State.decoded (s : State) : Except DecodeError (Instr × List Word) :=
  let at' (k : Word) := s.peekWord .prog (evenAddress (s.pc + 2 * k))
  decodeWords [at' 0, at' 1, at' 2]

/-- The instruction that a fetching step runs and its number of words. -/
def State.fetched (s : State) : Option (Instr × Nat) :=
  match s.decoded with
  | .ok (i, rest) => some (i, 3 - rest.length)
  | .error _ => none

/-- The state in which a fetching step runs its instruction of `n` words, but for the bus record and the points: PC past them, the first
and the last of them in the CPU. -/
def State.atRun (n : Nat) (s : State) : State :=
  let at' (k : Word) := s.peekWord .prog (evenAddress (s.pc + 2 * k))
  { s with
    pins := s.pins.tail
    ir := at' 0
    ir2 := if n = 1 then s.ir2 else at' (BitVec.ofNat 16 (n - 1))
    pc := s.pc + 2 * BitVec.ofNat 16 n }

/-- The state in which a step runs the next iteration of the block instruction it holds (R99, R652). -/
def State.atResume (s : State) : State := { s with pins := s.pins.tail, pc := s.pc + 4, repeating := false }

/-- The step answers `t`, but for the record of bus transactions and the points of a step that a reset abandons. -/
def Answers (o : Host.Outcome State Fault Refusal) (t : State) : Prop :=
  ∃ bus trace, o = .next { t with bus := bus, trace := trace }

/-! ### Accesses -/

/-- An access of size `z` to address `a` completes (R86): a byte anywhere; a word or long word at an even address, or
at any address with `MISALIGNED = ignore_a0`. -/
def State.reaches (z : Size) (a : Word) (s : State) : Bool :=
  z == .b || !a.getLsbD 0 || s.cfg.misaligned == .ignoreA0

/-- `MemRead(sp:a, z)` of R80 to R82; bit 0 of a word address is 0 or ignored. -/
def State.valueAt (z : Size) (sp : Space) (a : Word) (s : State) : BitVec z.bits :=
  match z with
  | .b => s.peek sp a
  | .w => s.peekWord sp (evenAddress a)
  | .l => s.peekWord sp (evenAddress a) ++ s.peekWord sp (evenAddress (a + 2))

/-- The state after `MemWrite(sp:a, z, v)` (R83). -/
def State.putAt (z : Size) (sp : Space) (a : Word) (v : BitVec z.bits) (s : State) : State :=
  match z, v with
  | .b, v => s.poke sp a v
  | .w, v => s.pokeWord sp (evenAddress a) v
  | .l, v => (s.pokeWord sp (evenAddress a) (v.extractLsb' 16 16)).pokeWord sp (evenAddress (a + 2))
      (v.extractLsb' 0 16)

/-- The byte under key `k` is one of those an access of size `z` to `sp:a` covers. -/
def State.covers (z : Size) (sp : Space) (a : Word) (k : Nat) (s : State) : Bool :=
  match z with
  | .b => k == s.key sp a
  | .w => k == s.key sp (evenAddress a) || k == s.key sp (evenAddress a + 1)
  | .l => k == s.key sp (evenAddress a) || k == s.key sp (evenAddress a + 1) ||
      k == s.key sp (evenAddress (a + 2)) || k == s.key sp (evenAddress (a + 2) + 1)

/-- The code `c` names a register of size `z` (R116). -/
def regFits (z : Size) (c : Reg) : Bool := z != .l || pairOk c

/-- `Reg(N, c)` (R142). -/
def State.reg (z : Size) (c : Reg) (s : State) : BitVec z.bits :=
  match z with
  | .b => s.byte c
  | .w => s.word c
  | .l => s.long c

/-- `Reg(N, c) <- v` (R142). -/
def State.setReg (z : Size) (c : Reg) (v : BitVec z.bits) (s : State) : State :=
  match z, v with
  | .b, v => s.setByte c v
  | .w, v => s.setWord c v
  | .l, v => s.setLong c v

/-- The word registers that hold the register `c` of size `z` (R13). -/
def regCovers (z : Size) (c r : Reg) : Bool :=
  match z with
  | .b => r == byteHome c
  | .w => r == c
  | .l => r == c || r == c + 1

/-! ### Operands -/

/-- A memory operand can be accessed. -/
def State.memReady (z : Size) (m : Mem) (s : State) : Bool := s.reaches z (memEA m s).2

/-- A source can be read. -/
def State.srcReady (z : Size) (src : Src z) (s : State) : Bool :=
  match src with
  | .reg c => regFits z c
  | .imm _ => true
  | .mem m => s.memReady z m

/-- What a source holds. -/
def State.srcValue (z : Size) (src : Src z) (s : State) : BitVec z.bits :=
  match src with
  | .reg c => s.reg z c
  | .imm v => v
  | .mem m => s.valueAt z (memEA m s).1 (memEA m s).2

/-- A destination can be read and written. -/
def State.dstReady (z : Size) (d : Dst) (s : State) : Bool :=
  match d with
  | .reg c => regFits z c
  | .mem m => s.memReady z m

/-- What a destination holds. -/
def State.dstValue (z : Size) (d : Dst) (s : State) : BitVec z.bits :=
  match d with
  | .reg c => s.reg z c
  | .mem m => s.valueAt z (memEA m s).1 (memEA m s).2

/-- The state after a write of a destination. -/
def State.putDst (z : Size) (d : Dst) (v : BitVec z.bits) (s : State) : State :=
  match d with
  | .reg c => s.setReg z c v
  | .mem m => s.putAt z (memEA m s).1 (memEA m s).2 v

/-- A load source can be read. -/
def State.ldReady (z : Size) (src : LdSrc) (s : State) : Bool :=
  match src with
  | .reg c => regFits z c
  | .mem m => s.reaches z (ldEA m s).2

/-- What a load source holds. -/
def State.ldValue (z : Size) (src : LdSrc) (s : State) : BitVec z.bits :=
  match src with
  | .reg c => s.reg z c
  | .mem m => s.valueAt z (ldEA m s).1 (ldEA m s).2

/-! ### Flag rules -/

/-- The integer is a two's complement number of `n` bits. -/
def fits (n : Nat) (x : Int) : Bool := decide (-(2 ^ (n - 1)) ≤ x ∧ x < 2 ^ (n - 1))

/-- Z and S of a result (R300). -/
def resultFlags {n : Nat} (r : BitVec n) (k : Fcw) : Fcw := { k with z := decide (r = 0), s := decide (r.toInt < 0) }

/-- `a + b + carry`: the value, and C, Z, S, V as R300 says them of the exact sums. -/
def sumOf {n : Nat} (a b : BitVec n) (carry : Bool) (k : Fcw) : BitVec n × Fcw :=
  let r := a + b + BitVec.ofNat n carry.toNat
  (r, { resultFlags r k with
    c := decide (2 ^ n ≤ a.toNat + b.toNat + carry.toNat)
    v := !fits n (a.toInt + b.toInt + carry.toNat) })

/-- `a - b - borrow`: the value, and C, Z, S, V as R300 says them of the exact differences. -/
def differenceOf {n : Nat} (a b : BitVec n) (borrow : Bool) (k : Fcw) : BitVec n × Fcw :=
  let r := a - b - BitVec.ofNat n borrow.toNat
  (r, { resultFlags r k with
    c := decide (a.toNat < b.toNat + borrow.toNat)
    v := !fits n (a.toInt - b.toInt - borrow.toNat) })

/-- D and H of a byte addition (R37). -/
def sumDigits (a b : Byte) (carry : Bool) (k : Fcw) : Fcw :=
  { k with d := false, h := decide (16 ≤ a.toNat % 16 + b.toNat % 16 + carry.toNat) }
/-- D and H of a byte subtraction (R37). -/
def differenceDigits (a b : Byte) (borrow : Bool) (k : Fcw) : Fcw :=
  { k with d := true, h := decide (a.toNat % 16 < b.toNat % 16 + borrow.toNat) }

/-- The number of 1 bits of a byte. -/
def ones (b : Byte) : Nat := ((List.range 8).filter fun i => b.getLsbD i).length

/-- Z and S of a logical result, and for bytes V, which is 1 for an even number of 1 bits (R400). -/
def logicFlags (z : Size) (r : BitVec z.bits) (k : Fcw) : Fcw :=
  match z, r with
  | .b, r => { resultFlags r k with v := decide (ones r % 2 = 0) }
  | .w, r => resultFlags r k
  | .l, r => resultFlags r k

/-- V of a shift or rotate whose values after 1, 2, …, `k` positions are `at 1`, …, `at k` (R500). -/
def shiftV {n : Nat} (rule : ShiftV) (x : BitVec n) (after : Nat → BitVec n) (k : Nat) : Bool :=
  match rule with
  | .anyStep => (List.range k).any fun j => (after (j + 1)).msb != x.msb
  | .final => (after k).msb != x.msb

/-- A left shift by `k` positions, `k` at least 1: C is the last bit shifted out (R500, R507). -/
def shiftedLeft {n : Nat} (rule : ShiftV) (k : Nat) (x : BitVec n) (f : Fcw) : BitVec n × Fcw :=
  (x <<< k, { resultFlags (x <<< k) f with
    c := decide (k ≤ n) && x.getLsbD (n - k)
    v := shiftV rule x (x <<< ·) k })

/-- An arithmetic right shift by `k` positions, `k` at least 1. -/
def shiftedArithmetic {n : Nat} (k : Nat) (x : BitVec n) (f : Fcw) : BitVec n × Fcw :=
  (x.sshiftRight k, { resultFlags (x.sshiftRight k) f with c := (x.sshiftRight (k - 1)).getLsbD 0, v := false })

/-- A logical right shift by `k` positions, `k` at least 1: V is 1 exactly for a negative operand. -/
def shiftedLogical {n : Nat} (k : Nat) (x : BitVec n) (f : Fcw) : BitVec n × Fcw :=
  (x >>> k, { resultFlags (x >>> k) f with c := (x >>> (k - 1)).getLsbD 0, v := x.msb })

/-- A shift by no position (R510, R520). -/
def notShifted {n : Nat} (clearsC : Bool) (x : BitVec n) (f : Fcw) : BitVec n × Fcw :=
  (x, { resultFlags x f with c := !clearsC && f.c, v := false })

/-- A dynamic shift by the signed count `q` (R510, R511). -/
def dynamicShift {n : Nat} (rule : ShiftV) (clearsC : Bool) (right : Nat → BitVec n → Fcw → BitVec n × Fcw)
    (q : Int) (x : BitVec n) (f : Fcw) : BitVec n × Fcw :=
  if q = 0 then notShifted clearsC x f
  else if 0 < q then shiftedLeft rule q.toNat x f
  else right (-q).toNat x f

/-- The carry and the operand as one number of `n + 1` bits. -/
def withCarry {n : Nat} (c : Bool) (x : BitVec n) : BitVec (1 + n) := BitVec.ofBool c ++ x

/-- A rotate by `k` positions: `value` and `carry` give the operand and C after each number of positions (R500). -/
def rotated {n : Nat} (rule : ShiftV) (k : Nat) (value : Nat → BitVec n) (carry : Nat → Bool) (x : BitVec n) (f : Fcw) :
    BitVec n × Fcw :=
  (value k, { resultFlags (value k) f with c := carry k, v := shiftV rule x value k })

/-- RL: the bits leave at the top and enter at the bottom; C is the last bit that moved (R501). -/
def rotatedLeft {n : Nat} (rule : ShiftV) (k : Nat) (x : BitVec n) : Fcw → BitVec n × Fcw :=
  rotated rule k (fun j => x.rotateLeft j) (fun j => (x.rotateLeft j).getLsbD 0) x
/-- RR (R503). -/
def rotatedRight {n : Nat} (rule : ShiftV) (k : Nat) (x : BitVec n) : Fcw → BitVec n × Fcw :=
  rotated rule k (fun j => x.rotateRight j) (fun j => (x.rotateRight j).msb) x
/-- RLC: C is part of the ring (R502). -/
def rotatedLeftCarry {n : Nat} (rule : ShiftV) (k : Nat) (x : BitVec n) (f : Fcw) : BitVec n × Fcw :=
  rotated rule k (fun j => ((withCarry f.c x).rotateLeft j).extractLsb' 0 n)
    (fun j => ((withCarry f.c x).rotateLeft j).msb) x f
/-- RRC (R504). -/
def rotatedRightCarry {n : Nat} (rule : ShiftV) (k : Nat) (x : BitVec n) (f : Fcw) : BitVec n × Fcw :=
  rotated rule k (fun j => ((withCarry f.c x).rotateRight j).extractLsb' 0 n)
    (fun j => ((withCarry f.c x).rotateRight j).msb) x f

/-- The remainder `r` of a division of `a` by `b` has the sign the parameter says, and is smaller than `b` (R307). -/
def remainderOk (sign : RemSign) (a b r : Int) : Prop :=
  r.natAbs < b.natAbs ∧
    (r ≠ 0 → (0 < r ↔ 0 < (match sign with
      | .dividend => a
      | .divisor => b)))

/-! ### Modes, traps and block instructions -/

/-- The instruction `i` may run: the mode is system mode, or `PRIV_SET` does not name its first word (R1030, R1041). -/
def State.allowed (i : Instr) (s : State) : Bool := s.fcw.sys || !privilegedWord s.cfg.privSet (firstWordOf i)

/-- The number of words of an instruction that the table of R1041 names. -/
def privilegedWords : Instr → Option Word
  | .inp _ p | .inpb _ p | .outp p _ | .outpb p _ => some (portWords p)
  | .sin _ _ | .sinb _ _ | .sout _ _ | .soutb _ _ => some 2
  | .ind _ _ _ | .indb _ _ _ | .sind _ _ _ | .sindb _ _ _ | .ini _ _ _ | .inib _ _ _ | .sini _ _ _ => some 2
  | .sinib _ _ _ | .outd _ _ _ | .outdb _ _ _ | .soutd _ _ _ | .soutdb _ _ _ | .outi _ _ _ => some 2
  | .outib _ _ _ | .souti _ _ _ | .soutib _ _ _ => some 2
  | .indr _ _ _ _ | .indrb _ _ _ _ | .sindr _ _ _ _ | .sindrb _ _ _ _ | .inir _ _ _ _ => some 2
  | .inirb _ _ _ _ | .sinir _ _ _ _ | .sinirb _ _ _ _ | .otdr _ _ _ _ | .otdrb _ _ _ _ => some 2
  | .sotdr _ _ _ _ | .sotdrb _ _ _ _ | .otir _ _ _ _ | .otirb _ _ _ _ | .sotir _ _ _ _ => some 2
  | .sotirb _ _ _ _ => some 2
  | .di _ | .ei _ | .halt | .iret | .mset | .mres | .mbit | .mreq _ | .ldctlTo _ _ | .ldctlFrom _ _ => some 1
  | .ldps m => some (memOperandWords m)
  | _ => none

/-- The number of words of an extended instruction (R953 to R957). -/
def extendedWords : Instr → Option Word
  | .ldFromEpu _ _ _ _ _ _ | .ldToEpu _ _ _ _ _ _ | .ldbFcwEpu _ _ _ _ | .ldbEpuFcw _ _ _ _ | .epui _ _ _ _ => some 2
  | .ldFromEpuMem m _ _ _ | .ldToEpuMem m _ _ _ => some (epuMemWords m)
  | _ => none

/-- Extended instructions run (R950, R951, R959). -/
def State.extendedRuns (s : State) : Bool := s.cfg.rev == .full && s.fcw.epa

/-- The state after the three pushes of an entry sequence on the system stack (R1010). -/
def State.pushed (savedPc ident : Word) (s : State) : State :=
  let u := s.setFcw { s.fcw with sys := true }
  let sp := u.word 15
  (((u.setWord 15 (sp - 6)).putAt .w .stack (sp - 2) savedPc).putAt .w .stack (sp - 4) s.fcwWord).putAt .w .stack
    (sp - 6) ident

/-- The state after an entry sequence: FCW and PC come from the Program Status Area (R1010, R1013). -/
def State.entered (e : Event) (savedPc ident : Word) (s : State) : State :=
  let u := s.pushed savedPc ident
  (u.setFcw (Fcw.legal s.cfg (u.peekWord .prog (s.psa + e.fcwOffset)))).setPc
    (u.peekWord .prog (s.psa + e.pcOffset ident))

/-- The system stack can take an entry sequence. -/
def State.entryReady (s : State) : Bool := s.reaches .w (s.regs[15])

/-- The step of a pointer of a block instruction (R650). -/
def moved (z : Size) (dir : Direction) (a : Word) : Word :=
  match dir with
  | .up => a + z.bytes
  | .down => a - z.bytes

/-- The count of a block instruction ends with this iteration (R650). -/
def State.last (r : Reg) (s : State) : Bool := s.word r - 1 == 0

/-- After an iteration of a repeating form: PC at the next instruction when it is over, else at its own address, with the
instruction still held (R652, R99). -/
def State.again (done : Bool) (s : State) : State :=
  if done then s else { s with pc := s.pc - 4, repeating := true }

/-- One iteration of a block load (R667). -/
def State.copied (z : Size) (dir : Direction) (d p r : Reg) (s : State) : State :=
  let u := s.putAt z (dsp d) (s.word d) (s.valueAt z (dsp p) (s.word p))
  (((u.setWord p (moved z dir (s.word p))).setWord d (moved z dir (s.word d))).setWord r (s.word r - 1)).setFcw
    { s.fcw with z := s.last r, v := s.last r }

/-- The flags of a block compare before Z and V are replaced: those of `a - m` (R665). -/
def compareOf {n : Nat} (a m : BitVec n) (k : Fcw) : Fcw := (differenceOf a m false k).2

/-- One iteration of a block compare with a register: whether the condition held, and the state (R665). -/
def State.compared (z : Size) (dir : Direction) (d p r : Reg) (cc : Cond) (s : State) : Bool × State :=
  let k := compareOf (s.reg z d) (s.valueAt z (dsp p) (s.word p)) s.fcw
  (condHolds cc k,
    ((s.setWord p (moved z dir (s.word p))).setWord r (s.word r - 1)).setFcw
      { k with z := condHolds cc k, v := s.last r })

/-- One iteration of a string compare (R666). -/
def State.matched (z : Size) (dir : Direction) (d p r : Reg) (cc : Cond) (s : State) : Bool × State :=
  let k := compareOf (s.valueAt z (dsp d) (s.word d)) (s.valueAt z (dsp p) (s.word p)) s.fcw
  (condHolds cc k,
    (((s.setWord p (moved z dir (s.word p))).setWord d (moved z dir (s.word d))).setWord r (s.word r - 1)).setFcw
      { k with z := condHolds cc k, v := s.last r })

/-- The table entry of a translate instruction: the string byte is an unsigned index (R678). -/
def State.entry (d t : Reg) (s : State) : Byte :=
  s.peek (dsp t) (s.word t + (s.peek (dsp d) (s.word d)).setWidth 16)

/-- One iteration of a translation (R678). -/
def State.translated (dir : Direction) (d t r : Reg) (s : State) : State :=
  (((s.poke (dsp d) (s.word d) (s.entry d t)).setWord d (moved .b dir (s.word d))).setWord r (s.word r - 1)).setFcw
    { s.fcw with v := s.last r }

/-- One iteration of a translation and test: the entry goes to RH1 (R678). -/
def State.tested (dir : Direction) (d t r : Reg) (s : State) : State :=
  (((s.setByte 1 (s.entry d t)).setWord d (moved .b dir (s.word d))).setWord r (s.word r - 1)).setFcw
    { s.fcw with z := s.entry d t == 0, v := s.last r }

/-- The value of a port read from the data lines: a byte port at an even address is on the upper half (R91). -/
def portValue (z : Size) (port lines : Word) : BitVec z.bits :=
  match z with
  | .b => if port.getLsbD 0 then loByte lines else hiByte lines
  | .w => lines
  | .l => lines ++ lines

/-- The data lines of a port write: a byte stands on both halves (R83). -/
def portLines (z : Size) (v : BitVec z.bits) : Word :=
  match z, v with
  | .b, v => v ++ v
  | .w, v => v
  | .l, v => v.extractLsb' 0 16

/-- The transactions of `MemRead(sp:a, z)`, newest first (R71, R80 to R82): a byte read shows the whole word on the data
lines; of a long word the upper half is read first. -/
def State.readEvents (z : Size) (sp : Space) (a : Word) (s : State) : List BusEvent :=
  let word (a : Word) : BusEvent :=
    .transfer sp.status s.fcw.sys true false (evenAddress a) (s.peekWord sp (evenAddress a))
  match z with
  | .b => [.transfer sp.status s.fcw.sys true true a (s.peekWord sp (evenAddress a))]
  | .w => [word a]
  | .l => [word (a + 2), word a]

/-- The transactions of `MemWrite(sp:a, z, v)`, newest first (R71, R83). -/
def State.writeEvents (z : Size) (sp : Space) (a : Word) (v : BitVec z.bits) (s : State) : List BusEvent :=
  let word (a : Word) (v : Word) : BusEvent := .transfer sp.status s.fcw.sys false false (evenAddress a) v
  match z, v with
  | .b, v => [.transfer sp.status s.fcw.sys false true a (v ++ v)]
  | .w, v => [word a v]
  | .l, v => [word (a + 2) (v.extractLsb' 0 16), word a (v.extractLsb' 16 16)]

/-- The discarded read of the @R forms of JP and CALL (R90, log entry 28); the other forms read nothing. -/
def State.targetEvents (m : Mem) (s : State) : List BusEvent :=
  match m with
  | .ind r => s.readEvents .w (dsp r) (s.word r)
  | .da _ => []
  | .x _ _ => []

/-- The transaction of a port read. -/
def State.portRead (z : Size) (sp : IoSpace) (port : Word) (s : State) : BusEvent :=
  .transfer sp.status s.fcw.sys true (z == .b) port (takePort s).1

/-- The transaction of a port write. -/
def State.portWrite (z : Size) (sp : IoSpace) (port : Word) (v : BitVec z.bits) (s : State) : BusEvent :=
  .transfer sp.status s.fcw.sys false (z == .b) port (portLines z v)

/-- One iteration of a block input (R757). -/
def State.inputted (z : Size) (dir : Direction) (d p r : Reg) (s : State) : State :=
  let u := (takePort s).2.putAt z (dsp d) (s.word d) (portValue z (s.word p) (takePort s).1)
  ((u.setWord d (moved z dir (s.word d))).setWord r (s.word r - 1)).setFcw { s.fcw with v := s.last r }

/-- One iteration of a block output, but for the port write (R765). -/
def State.outputted (z : Size) (dir : Direction) (p r : Reg) (s : State) : State :=
  ((s.setWord p (moved z dir (s.word p))).setWord r (s.word r - 1)).setFcw { s.fcw with v := s.last r }

/-- Repeats a two-word block instruction `i`, whose end is at `e`, until it is over, at most `n` times. -/
def repeatBlock (i : Instr) (e : Word) : Nat → State → Host.Outcome State Fault Refusal
  | 0, s => .next s
  | n + 1, s =>
    match exec i { s with pc := e, repeating := false } with
    | .next t => if t.repeating then repeatBlock i e n t else .next t
    | .fault r => .fault r
    | .refused r => .refused r

/-! ### Shapes of claims -/

/-- The instruction answers `t`, but for the points of a step that a reset abandons, and makes the bus transactions `es`,
newest first, and no others. -/
def Does (o : Host.Outcome State Fault Refusal) (t : State) (es : List BusEvent) : Prop :=
  ∃ trace, o = .next { t with bus := es ++ t.bus, trace := trace }

/-- The step answers `t`, but for the points of a step that a reset abandons, and its first bus transactions are `es`,
newest first. -/
def AnswersAfter (o : Host.Outcome State Fault Refusal) (t : State) (es : List BusEvent) : Prop :=
  ∃ bus trace, o = .next { t with bus := bus ++ (es ++ t.bus), trace := trace }

/-- `i`, where it may run, answers `t`. -/
def Runs (i : Instr) (s t : State) : Prop := s.allowed i = true → Answers (exec i s) t

/-- `i`, where it may run, answers `t` and makes the bus transactions `es`, newest first, and no others. -/
def RunsWith (i : Instr) (s t : State) (es : List BusEvent) : Prop := s.allowed i = true → Does (exec i s) t es

/-- `i`, where it may run, is refused with `r`. -/
def Refuses (i : Instr) (s : State) (r : Refusal) : Prop := s.allowed i = true → exec i s = .refused r

/-- `i`, where it may run, stops at the odd address `a`. -/
def FaultsAt (i : Instr) (s : State) (a : Word) : Prop := s.allowed i = true → exec i s = .fault (.misaligned a)

/-- `mk d src`: the register `d` becomes `f` of itself and the source, with its flags. -/
def ComputesReg (z : Size) (mk : Reg → Src z → Instr)
    (f : BitVec z.bits → BitVec z.bits → Fcw → BitVec z.bits × Fcw) : Prop :=
  ∀ (d : Reg) (src : Src z) (s : State), regFits z d = true → s.srcReady z src = true →
    Answers (exec (mk d src) s)
      ((s.setReg z d (f (s.reg z d) (s.srcValue z src) s.fcw).1).setFcw (f (s.reg z d) (s.srcValue z src) s.fcw).2)

/-- `mk d src`: only the flags change. -/
def ComputesFlags (z : Size) (mk : Reg → Src z → Instr) (f : BitVec z.bits → BitVec z.bits → Fcw → Fcw) : Prop :=
  ∀ (d : Reg) (src : Src z) (s : State), regFits z d = true → s.srcReady z src = true →
    Answers (exec (mk d src) s) (s.setFcw (f (s.reg z d) (s.srcValue z src) s.fcw))

/-- `mk d`: the destination, a register or memory, becomes `f` of itself, with its flags. -/
def ComputesDst (z : Size) (mk : Dst → Instr) (f : State → BitVec z.bits → Fcw → BitVec z.bits × Fcw) : Prop :=
  ∀ (d : Dst) (s : State), s.dstReady z d = true →
    Answers (exec (mk d) s) ((s.putDst z d (f s (s.dstValue z d) s.fcw).1).setFcw (f s (s.dstValue z d) s.fcw).2)

/-- `mk d`: only the flags change, by the value of the destination. -/
def InspectsDst (z : Size) (mk : Dst → Instr) (f : BitVec z.bits → Fcw → Fcw) : Prop :=
  ∀ (d : Dst) (s : State), s.dstReady z d = true → Answers (exec (mk d) s) (s.setFcw (f (s.dstValue z d) s.fcw))

/-- `mk d`: the register `d` becomes `f` of itself, with its flags. -/
def ShiftsReg (z : Size) (mk : Reg → Instr) (f : State → BitVec z.bits → Fcw → BitVec z.bits × Fcw) : Prop :=
  ∀ (d : Reg) (s : State), regFits z d = true →
    Answers (exec (mk d) s) ((s.setReg z d (f s (s.reg z d) s.fcw).1).setFcw (f s (s.reg z d) s.fcw).2)

/-- A source at an odd address stops with `MISALIGNED = refuse` (R86). -/
def FaultsOddSource (z : Size) (mk : Reg → Src z → Instr) : Prop :=
  ∀ (d : Reg) (m : Mem) (s : State), s.memReady z m = false →
    exec (mk d (.mem m)) s = .fault (.misaligned (memEA m s).2)

/-- A destination at an odd address stops with `MISALIGNED = refuse` (R86). -/
def FaultsOddDst (z : Size) (mk : Dst → Instr) : Prop :=
  ∀ (m : Mem) (s : State), s.memReady z m = false → exec (mk (.mem m)) s = .fault (.misaligned (memEA m s).2)

/-- The operand registers named by `mk` must not be odd pair codes (R25). -/
def RefusesOddPair (mk : Reg → Src .l → Instr) : Prop :=
  ∀ (d : Reg) (src : Src .l) (s : State), pairOk d = false → s.srcReady .l src = true →
    exec (mk d src) s = .refused (.illegalPair d)

/-! ### What an instruction may change -/

/-- The instructions without a privilege, a trap of their own or an EPU: what a program may run in normal mode. -/
def ordinary : Instr → Bool
  | .inp _ _ | .inpb _ _ | .sin _ _ | .sinb _ _ | .outp _ _ | .outpb _ _ | .sout _ _ | .soutb _ _ => false
  | .ind _ _ _ | .indb _ _ _ | .sind _ _ _ | .sindb _ _ _ | .ini _ _ _ | .inib _ _ _ | .sini _ _ _ => false
  | .sinib _ _ _ | .outd _ _ _ | .outdb _ _ _ | .soutd _ _ _ | .soutdb _ _ _ | .outi _ _ _ => false
  | .outib _ _ _ | .souti _ _ _ | .soutib _ _ _ => false
  | .indr _ _ _ _ | .indrb _ _ _ _ | .sindr _ _ _ _ | .sindrb _ _ _ _ | .inir _ _ _ _ => false
  | .inirb _ _ _ _ | .sinir _ _ _ _ | .sinirb _ _ _ _ | .otdr _ _ _ _ | .otdrb _ _ _ _ => false
  | .sotdr _ _ _ _ | .sotdrb _ _ _ _ | .otir _ _ _ _ | .otirb _ _ _ _ | .sotir _ _ _ _ => false
  | .sotirb _ _ _ _ => false
  | .di _ | .ei _ | .halt | .iret | .sc _ | .ldctlTo _ _ | .ldctlFrom _ _ | .ldps _ => false
  | .mset | .mres | .mbit | .mreq _ => false
  | .ldFromEpu _ _ _ _ _ _ | .ldFromEpuMem _ _ _ _ | .ldToEpu _ _ _ _ _ _ | .ldToEpuMem _ _ _ _ => false
  | .ldbFcwEpu _ _ _ _ | .ldbEpuFcw _ _ _ _ | .epui _ _ _ _ => false
  | _ => true

/-- The register an instruction with one destination register writes, with its size. -/
def target : Instr → Option (Size × Reg)
  | .ld d _ | .ldr d _ | .lda d _ | .ldar d _ | .ldk d _ | .ldImm (.reg d) _ | .clr (.reg d) => some (.w, d)
  | .ldb d _ | .ldrb d _ | .ldbImm (.reg d) _ | .ldbImmCompact d _ | .clrb (.reg d) => some (.b, d)
  | .ldl d _ | .ldrl d _ | .ldlImm d _ => some (.l, d)
  | .add d _ | .sub d _ | .and d _ | .or d _ | .xor d _ | .adc d _ | .sbc d _ => some (.w, d)
  | .addb d _ | .subb d _ | .andb d _ | .orb d _ | .xorb d _ | .adcb d _ | .sbcb d _ | .dab d => some (.b, d)
  | .addl d _ | .subl d _ | .mult d _ | .div d _ => some (.l, d)
  | .inc (.reg d) _ | .dec (.reg d) _ | .neg (.reg d) | .com (.reg d) | .tset (.reg d) | .resBit (.reg d) _ => some (.w, d)
  | .incb (.reg d) _ | .decb (.reg d) _ | .negb (.reg d) | .comb (.reg d) | .tsetb (.reg d) => some (.b, d)
  | .setBit (.reg d) _ | .resBitDyn d _ | .setBitDyn d _ | .tcc _ d | .extsb d | .exts d => some (.w, d)
  | .resBitB (.reg d) _ | .setBitB (.reg d) _ | .resBitBDyn d _ | .setBitBDyn d _ | .tccb _ d => some (.b, d)
  | .rl d _ | .rlc d _ | .rr d _ | .rrc d _ | .sda d _ | .sdl d _ | .sla d _ | .sll d _ | .sra d _ => some (.w, d)
  | .rlb d _ | .rlcb d _ | .rrb d _ | .rrcb d _ | .sdab d _ | .sdlb d _ | .slab d _ | .sllb d _ => some (.b, d)
  | .sdal d _ | .sdll d _ | .slal d _ | .slll d _ | .sral d _ | .srll d _ | .extsl d => some (.l, d)
  | .srab d _ | .srlb d _ | .ldctlbFrom d | .dbjnz d _ => some (.b, d)
  | .srl d _ | .djnz d _ => some (.w, d)
  | _ => none

/-- The place an instruction with a memory destination stores to, computed as its meaning computes it. -/
def storage : Instr → State → Option (Size × Space × Word)
  | .clr (.mem m), s | .ldImm (.mem m) _, s | .inc (.mem m) _, s | .dec (.mem m) _, s => some (.w, memEA m s)
  | .clrb (.mem m), s | .ldbImm (.mem m) _, s | .incb (.mem m) _, s | .decb (.mem m) _, s => some (.b, memEA m s)
  | .neg (.mem m), s | .com (.mem m), s | .tset (.mem m), s | .resBit (.mem m) _, s => some (.w, memEA m s)
  | .negb (.mem m), s | .comb (.mem m), s | .tsetb (.mem m), s | .resBitB (.mem m) _, s => some (.b, memEA m s)
  | .setBit (.mem m) _, s => some (.w, memEA m s)
  | .setBitB (.mem m) _, s => some (.b, memEA m s)
  | .ldStore m _, s => some (.w, ldEA m s)
  | .ldbStore m _, s => some (.b, ldEA m s)
  | .ldlStore m _, s => some (.l, ldEA m s)
  | .ldrStore disp _, s => some (.w, .prog, relEA disp s)
  | .ldrbStore disp _, s => some (.b, .prog, relEA disp s)
  | .ldrlStore disp _, s => some (.l, .prog, relEA disp s)
  | _, _ => none

/-- The instructions that change no flag: loads, stack, exchange, sign extension, TCC, RES, SET and program control. -/
def keepsFlags : Instr → Bool
  | .clr _ | .clrb _ | .ex _ _ | .exb _ _ | .ld _ _ | .ldb _ _ | .ldl _ _ | .ldStore _ _ | .ldbStore _ _ => true
  | .ldlStore _ _ | .ldImm _ _ | .ldbImm _ _ | .ldbImmCompact _ _ | .ldlImm _ _ | .lda _ _ | .ldar _ _ => true
  | .ldk _ _ | .ldmLoad _ _ _ | .ldmStore _ _ _ | .ldr _ _ | .ldrb _ _ | .ldrl _ _ | .ldrStore _ _ => true
  | .ldrbStore _ _ | .ldrlStore _ _ | .pop _ _ | .popl _ _ | .pushw _ _ | .pushl _ _ => true
  | .extsb _ | .exts _ | .extsl _ | .tcc _ _ | .tccb _ _ => true
  | .resBit _ _ | .resBitB _ _ | .resBitDyn _ _ | .resBitBDyn _ _ => true
  | .setBit _ _ | .setBitB _ _ | .setBitDyn _ _ | .setBitBDyn _ _ => true
  | .call _ | .calr _ | .djnz _ _ | .dbjnz _ _ | .jp _ _ | .jr _ _ | .ret _ | .nop | .ldctlbFrom _ => true
  | _ => false

end Sys2Proof.Machine
end

