-- ==== Sys2Proof/Certificates/Slice0/Obligations.lean ====
section
/-! DEFINITION. Certificates/Slice0/Obligations.lean: the statements for the provers. The terms they use are in
Safety.lean. -/

open Sys2Proof Sys2Proof.Machine

/-! ### Encoding -/

/-- R110 to R122 and the encoding tables: decoding the words of a well-formed instruction gives it back, with the
words after it untouched. -/
def Obligations.DecodeInvertsEncode : Prop :=
  ∀ (i : Instr) (ws : List Word), WellFormed i = true → decodeWords (encode i ++ ws) = .ok (i, ws)

/-- Words written out from the encoding tables of the spec, one of each family, and what they stand for. -/
def Obligations.DecodesSpecWords : Prop :=
  decodeWords [0x8D38] = .ok (.clr (.reg 3), []) ∧
  decodeWords [0x5412, 0x0100] = .ok (.ldl 2 (.mem (.std (.x 0x0100 1))), []) ∧
  decodeWords [0x1C11, 0x0E03] = .ok (.ldmLoad 14 (.ind 1) 3, []) ∧
  decodeWords [0x8121] = .ok (.add 1 (.reg 2), []) ∧
  decodeWords [0x0608, 0x0F0F] = .ok (.andb 8 (.imm 0x0F), []) ∧
  decodeWords [0xB319, 0xFFFF] = .ok (.sra 1 0x7FFF, []) ∧
  decodeWords [0x5F10, 0x0010] = .ok (.call (.x 0x0010 1), []) ∧
  decodeWords [0xF282] = .ok (.djnz 2 2, []) ∧
  decodeWords [0xBB21, 0x0340] = .ok (.ldir 4 2 3 .f, []) ∧
  decodeWords [0x3B56, 0x0020] = .ok (.outp (.da 0x0020) 5, []) ∧
  decodeWords [0x7D1D] = .ok (.ldctlTo .psap 1, []) ∧
  decodeWords [0x8F00, 0x0E02] = .ok (.ldFromEpu 14 0 0 0 0 2, [])

/-- R155, R157: no instruction of the tables begins with a word of the unimplemented list. -/
def Obligations.UnimplementedWordsAreNoInstruction : Prop :=
  ∀ (w : Word) (ws : List Word), unimplemented w = true → decodeWords (w :: ws) = .error .trapped

/-! ### The state and the step -/

/-- The invariant holds after reset. -/
def Obligations.ResetInv : Prop := State.reset.Inv

/-- Every step keeps the invariant: the canonical form of memory, the zero low byte of PSAP (R43), with `REV = Rev1`
SYS = 1 and EPA = 0 (R39, R40), and the places of the FCW bits apart from each other (R35); and no step, from any state,
changes a parameter of the spec (R10). -/
def Obligations.StepKeepsInv : Prop :=
  ∀ s t : State, step s = .next t → t.cfg = s.cfg ∧ (s.Inv → t.Inv)

/-- A step runs the decoded instruction. With nothing asked for by the environment and a first word that raises no trap,
the step at words that decode to `i` is `exec i` with PC past the words of `i` and these words held; words that decode to
no instruction are refused by name (R31, R110, R157). Between two iterations of a block instruction the step runs the
words held, without a fetch (R99, R652, D28; log entry 22). -/
def Obligations.StepRunsDecoded : Prop :=
  (∀ s : State, s.fetches = true → s.pcReady = true →
    firstWordTrap (s.peekWord .prog (evenAddress s.pc)) s = none →
    (∀ i n, s.fetched = some (i, n) → ∃ bus trace, step s = exec i { s.atRun n with bus := bus, trace := trace }) ∧
    (∀ e, s.decoded = .error e → step s = .refused (.undecodable e))) ∧
  (∀ (i : Instr) (s : State), s.quiet = true → s.repeating = true → decodeWords [s.ir, s.ir2] = .ok (i, []) →
    step s = exec i s.atResume)

/-- A first word that traps starts the entry sequence with the address after it as saved PC and the word as the
identifier, and nothing of the instruction itself happens: Unimplemented first, then Extended, then Privileged
(R1001, R1003, R1009, R1011, R1012). Any other word that begins no documented instruction is refused in either mode (R157,
D19). The model's choices: the words of R155 trap with `REV = Full` too (log entry 14); the privileged words are those of
the parameter `PRIV_SET`, by default the table of R1041 as patterns (log entry 30). -/
def Obligations.StepTakesTrap : Prop :=
  ∀ s : State, s.fetches = true → s.pcReady = true → s.entryReady = true →
    let w := s.peekWord .prog (evenAddress s.pc)
    let u := { s with pins := s.pins.tail, ir := w }
    (unimplemented w = true ∨ (extendedWord w = true ∧ s.cfg.rev = .rev1) →
      Answers (step s) (u.entered .systemCall (s.pc + 2) w)) ∧
    (unimplemented w = false → extendedWord w = true → s.cfg.rev = .full → s.fcw.epa = false →
      Answers (step s) (u.entered .extended (s.pc + 2) w)) ∧
    (unimplemented w = false → extendedWord w = false → beginsInstruction w = true →
      privilegedWord s.cfg.privSet w = true → s.fcw.sys = false →
      Answers (step s) (u.entered .privileged (s.pc + 2) w)) ∧
    (unimplemented w = false → extendedWord w = false → beginsInstruction w = false →
      ∃ e, step s = .refused (.undecodable e))

/-- An accepted interrupt is entered before anything else with the PC of the next instruction, or of the block
instruction between two of its iterations: NMI by its latch, then VI, then NVI by level and enable; the aborted fetch of a
first word and the acknowledge go before the entry sequence; it ends HALT, and the acknowledge clears the NMI latch
(R1005 to R1010, R1012, R71; the address and width of the two recorded reads: log entries 28 and 29; the model's counter:
log entry 42). -/
def Obligations.StepTakesInterrupt : Prop :=
  ∀ s : State, s.running = true → s.entryReady = true →
    let p := (takePins s).1
    let u := { s with pins := s.pins.tail, nmiPending := false, halted := false, repeating := false,
                      freeCount := s.freeCount + 1 }
    let events (ack : Status) : List BusEvent :=
      [.transfer ack s.fcw.sys true false 0 p.ident,
       .transfer .firstWord s.fcw.sys true false (evenAddress s.pc) (s.peekWord .prog (evenAddress s.pc))]
    (s.nmiPending = true ∨ p.nmiEdge = true → AnswersAfter (step s) (u.entered .nmi s.pc p.ident) (events .nmiAck)) ∧
    (s.nmiPending = false → p.nmiEdge = false → p.vi = true → s.fcw.vie = true →
      AnswersAfter (step s) (u.entered .vi s.pc p.ident) (events .viAck)) ∧
    (s.nmiPending = false → p.nmiEdge = false → (p.vi = false ∨ s.fcw.vie = false) → p.nvi = true → s.fcw.nvie = true →
      AnswersAfter (step s) (u.entered .nvi s.pc p.ident) (events .nviAck))

/-- Reset comes before everything else. While RESETF is active PSAP and REN are cleared, MOB is released, nothing executes,
and the general registers, NSP and the other bits of REFRESH keep their values, but for the Row field of a row counter
that ran (`REV = Full`, REN = 1), which is then a free value (R44; log entry 17); when it is inactive again FCW and then PC
come from Program memory 0x0002 and 0x0004 in system mode (R1100, R1103, R60). Inside a step it abandons the step, and what
the step had written by then stays written (R1100, D12; log entry 23): among the fetches nothing is written; LDB leaves
every byte but its own; a word access that stops is met only if the reset comes after it. An NMI edge while RESETF is
active is not remembered (R1105); that one in the step of the two fetches is latched, being after it, is the model's choice
(log entry 21). `State.reset` is what the sequence leaves of itself (log entry 24). -/
def Obligations.StepResets : Prop :=
  ((∀ s : State, (takePins s).1.reset = .asserted → ∃ row : BitVec 9,
     step s = .next
       { s with pins := s.pins.tail, psap := 0, refresh := s.refreshKept row, mob := true, halted := false,
                nmiPending := false, resetting := true, ir := 0, ir2 := 0, repeating := false,
                freeCount := s.freeCount + s.rowRuns.toNat, fcw := { s.fcw with sys := true } }) ∧
   (∀ s : State, (takePins s).1.reset = .released → s.resetting = true → ∃ row : BitVec 9,
     let u := s.setFcw { s.fcw with sys := true }
     Does (step s)
       { s with pins := s.pins.tail, psap := 0, refresh := s.refreshKept row, mob := true, halted := false,
                nmiPending := (takePins s).1.nmiEdge, resetting := false, ir := 0, ir2 := 0, repeating := false,
                freeCount := s.freeCount + s.rowRuns.toNat,
                fcw := Fcw.legal s.cfg (u.peekWord .prog 0x0002), pc := u.peekWord .prog 0x0004 }
       [.transfer .program true true false 0x0004 (u.peekWord .prog 0x0004),
        .transfer .program true true false 0x0002 (u.peekWord .prog 0x0002)])) ∧
  (∀ (s : State) (row : BitVec 9),
     (s.cfg.rev = .rev1 ∨ s.refresh.getLsbD 15 = false → s.refreshKept row = s.refresh &&& 0x7FFF) ∧
     (s.cfg.rev = .full → s.refresh.getLsbD 15 = true → s.refreshKept row = 0#1 ++ s.refresh.extractLsb' 9 6 ++ row)) ∧
  (∀ (k : Nat) (p : PinSample) (ps : List PinSample) (s : State), s.pins = { p with reset := .during k } :: ps →
    let r := { s with pins := { p with reset := .released } :: ps }
    let untouched (t : State) : Prop :=
      t.regs = s.regs ∧ t.nsp = s.nsp ∧ t.mem = s.mem ∧ ∃ row : BitVec 9, t.refresh = s.refreshKept row
    (∀ t, step s = .next t → t.resetting = true ∧ t.pins = ps ∧ t.psap = 0 ∧ t.refresh.getLsbD 15 = false ∧
      t.mob = true ∧ t.halted = false ∧ t.nmiPending = false ∧ t.fcw.sys = true ∧ (k = 0 → t.mem = s.mem)) ∧
    (r.fetches = true → k = 0 → ∃ t, step s = .next t ∧ untouched t) ∧
    (r.fetches = true → r.pcReady = true → firstWordTrap (r.peekWord .prog (evenAddress r.pc)) r = none →
      (∀ i n, r.fetched = some (i, n) → k < n → ∃ t, step s = .next t ∧ untouched t) ∧
      (∀ d m n, r.fetched = some (.ldb d (.mem m), n) → ∃ t, step s = .next t ∧ (k ≤ n → untouched t) ∧
        (∀ b, b ≠ d → t.byte b = s.byte b) ∧ (∀ c : Fin 16, c.val ≠ (byteHome d).toNat → t.regs[c] = s.regs[c]) ∧
        t.nsp = s.nsp ∧ t.mem = s.mem) ∧
      (∀ d m n, r.fetched = some (.ld d (.mem m), n) → s.ldReady .w (.mem m) = false →
        (k ≤ n → ∃ t, step s = .next t ∧ untouched t) ∧ (n < k → step s = .fault (.misaligned (ldEA m s).2))))) ∧
  (∃ bus, resetSequence State.reset = .ok { State.reset with bus := bus })

/-- R52: HALT sets the halt state; in it a step without reset or accepted interrupt executes nothing, and reset and
every accepted interrupt end it. -/
def Obligations.HaltStopsExecution : Prop :=
  (∀ s : State, s.allowed .halt = true → Answers (exec .halt s) { s with halted := true }) ∧
  (∀ s : State, s.halted = true → s.running = true → s.request = none → Answers (step s) { s with pins := s.pins.tail }) ∧
  (∀ s t : State, step s = .next t → (s.running = false ∨ s.request.isSome = true) → t.halted = false)

/-! ### Exceptions -/

/-- R1010, R1013: the entry sequence completes when the system stack pointer can be used, and leaves `entered`: from
the new SSP upward the identifier, the old FCW and the saved PC; FCW and PC from the entry of the event in the Program
Status Area; no other register changes, and memory changes in the three words only. FCW as a word has the bit positions
of log entry 1. -/
def Obligations.EntrySequence : Prop :=
  (∀ (e : Event) (savedPc ident : Word) (s : State), s.entryReady = true →
     Answers (answer (enter e savedPc ident s)) (s.entered e savedPc ident)) ∧
  (∀ (e : Event) (savedPc ident : Word) (s : State), s.entryReady = true →
     let t := s.entered e savedPc ident
     let u := { t with fcw := { s.fcw with sys := true } }
     let sp := s.regs[15]
     let psa : Word := hiByte s.psap ++ 0#8
     t.regs = s.regs.set 15 (sp - 6) ∧ t.nsp = s.nsp ∧ t.psap = s.psap ∧ t.refresh = s.refresh ∧ t.mob = s.mob ∧
     u.peekWord .stack (evenAddress (sp - 2)) = savedPc ∧ u.peekWord .stack (evenAddress (sp - 4)) = s.fcwWord ∧
     u.peekWord .stack (evenAddress (sp - 6)) = ident ∧
     (∀ k, u.covers .w .stack (sp - 2) k = false → u.covers .w .stack (sp - 4) k = false →
       u.covers .w .stack (sp - 6) k = false → Memory.read t.mem k = Memory.read s.mem k) ∧
     (match e with
     | .extended => t.fcw = Fcw.legal s.cfg (u.peekWord .prog (psa + 0x04)) ∧ t.pc = u.peekWord .prog (psa + 0x06)
     | .privileged => t.fcw = Fcw.legal s.cfg (u.peekWord .prog (psa + 0x08)) ∧ t.pc = u.peekWord .prog (psa + 0x0A)
     | .systemCall => t.fcw = Fcw.legal s.cfg (u.peekWord .prog (psa + 0x0C)) ∧ t.pc = u.peekWord .prog (psa + 0x0E)
     | .nmi => t.fcw = Fcw.legal s.cfg (u.peekWord .prog (psa + 0x14)) ∧ t.pc = u.peekWord .prog (psa + 0x16)
     | .nvi => t.fcw = Fcw.legal s.cfg (u.peekWord .prog (psa + 0x18)) ∧ t.pc = u.peekWord .prog (psa + 0x1A)
     | .vi => t.fcw = Fcw.legal s.cfg (u.peekWord .prog (psa + 0x1C)) ∧
         t.pc = u.peekWord .prog (psa + (0x1E + 2 * (ident &&& 0xFF)))))

/-- SC enters the System Call trap in either mode with its own word as the identifier (R858); IRET drops the
identifier and pops FCW and PC (R857), where `PRIV_SET` lets it run in normal mode with the stack pointer of that mode (log
entry 46). -/
def Obligations.ScAndIret : Prop :=
  (∀ (b : Byte) (s : State), s.entryReady = true →
    Answers (exec (.sc b) s) (s.entered .systemCall s.pc (0x7F#8 ++ b))) ∧
  (∀ s : State, s.allowed .iret = true → s.reaches .w (s.word 15) = true →
    Answers (exec .iret s)
      (((s.setWord 15 (s.word 15 + 6)).setFcw (Fcw.legal s.cfg (s.valueAt .w .stack (s.word 15 + 2)))).setPc
        (s.valueAt .w .stack (s.word 15 + 4))))

/-- A system call and the return from it: IRET in the handler's first state, when that runs in system mode, restores PC,
FCW and every register (R1010, R857, R1016). -/
def Obligations.ScThenIret : Prop :=
  ∀ (b : Byte) (s t : State), s.Inv → exec (.sc b) s = .next t → t.fcw.sys = true →
    ∃ u, exec .iret t = .next u ∧ u.pc = s.pc ∧ u.fcw = s.fcw ∧ u.regs = s.regs ∧ u.nsp = s.nsp

/-- In normal mode every instruction that `PRIV_SET` names raises the Privileged Instruction Trap with the address after
its first word, and has no effect of its own (R1030, R1012); the default `PRIV_SET` names exactly the instructions of the
table of R1041 (its rows beyond I/O: log entry 30). -/
def Obligations.PrivilegedTraps : Prop :=
  (∀ (i : Instr) (words : Word) (s : State), privilegedWords i = some words → s.allowed i = false →
    s.entryReady = true → Answers (exec i s) (s.entered .privileged (s.pc - 2 * (words - 1)) s.ir)) ∧
  (∀ i : Instr, WellFormed i = true → privilegedWord Config.privAll (firstWordOf i) = (privilegedWords i).isSome)

/-- Extended instructions that do not run: with `REV = Rev1` the SC and Unimplemented Instruction Trap, with EPA = 0 the
Extended Instruction Trap (R950, R951, R1012). -/
def Obligations.ExtendedTraps : Prop :=
  ∀ (i : Instr) (words : Word) (s : State), extendedWords i = some words → s.entryReady = true →
    (s.cfg.rev = .rev1 → Answers (exec i s) (s.entered .systemCall (s.pc - 2 * (words - 1)) s.ir)) ∧
    (s.cfg.rev = .full → s.fcw.epa = false →
      Answers (exec i s) (s.entered .extended (s.pc - 2 * (words - 1)) s.ir))

/-- In normal mode an instruction without privilege, trap or EPU leaves the mode, the interrupt enables, EPA, the system
stack pointer, PSAP, REFRESH, the multi-micro latch, the halt state and the NMI latch as they are (R24, R1021, R1030).
It says nothing about memory. -/
def Obligations.NormalModeIsolated : Prop :=
  ∀ (i : Instr) (s t : State), s.fcw.sys = false → ordinary i = true → exec i s = .next t →
    t.fcw.sys = false ∧ t.fcw.epa = s.fcw.epa ∧ t.fcw.vie = s.fcw.vie ∧ t.fcw.nvie = s.fcw.nvie ∧
    t.regs[15] = s.regs[15] ∧ t.psap = s.psap ∧ t.refresh = s.refresh ∧ t.mob = s.mob ∧ t.halted = s.halted ∧
    t.nmiPending = s.nmiPending

/-- R43: LDCTL stores the upper byte of PSAP alone and reads it back with a zero lower byte; no other instruction changes
PSAP; reset clears it. -/
def Obligations.PsapHoldsItsUpperByte : Prop :=
  (∀ (r : Reg) (s : State), Runs (.ldctlTo .psap r) s { s with psap := hiByte (s.word r) ++ 0#8 }) ∧
  (∀ (d : Reg) (s : State), Runs (.ldctlFrom d .psap) s (s.setWord d (hiByte s.psap ++ 0#8))) ∧
  (∀ (i : Instr) (s t : State), exec i s = .next t → t.psap ≠ s.psap → ∃ r, i = .ldctlTo .psap r) ∧
  (∀ s t : State, s.running = false → step s = .next t → t.psap = 0)

/-- R41: the bit SEG reads 0 in FCW and a write of it is ignored, in both revisions, at every place for it that keeps the
FCW bits apart; the source's place is lost, and the default bit 15 is the model's (R35, log entry 1). -/
def Obligations.SegReadsZero : Prop :=
  (∀ (p : FcwBits) (k : Fcw), FcwBits.ok p = true → (k.toWord p).getLsbD p.seg = false) ∧
  (∀ (c : Cfg) (w : Word), FcwBits.ok c.fcwBits = true →
    Fcw.legal c (w ||| BitVec.twoPow 16 c.fcwBits.seg) = Fcw.legal c (w &&& ~~~BitVec.twoPow 16 c.fcwBits.seg))

/-- R47: what a write of FCW leaves, read back as a word, with the default bit positions of R35 (log entry 1); and at all
positions that are apart the word of FCW writes FCW back. -/
def Obligations.FcwWriteReadsBack : Prop :=
  (∀ (c : Cfg) (w : Word), c.fcwBits = Config.fcwBits →
    (c.rev = .full → (Fcw.legal c w).toWord c.fcwBits = w &&& 0x78FC) ∧
    (c.rev = .rev1 → (Fcw.legal c w).toWord c.fcwBits = (w &&& 0x18FC) ||| 0x4000)) ∧
  (∀ (c : Cfg) (k : Fcw), FcwBits.ok c.fcwBits = true → c.rev = .full → Fcw.legal c (k.toWord c.fcwBits) = k) ∧
  (∀ (k : Fcw) (b : Byte), (k.withFlags Config.fcwBits b).toWord Config.fcwBits =
    (k.toWord Config.fcwBits &&& 0xFF00) ||| (b.setWidth 16 &&& 0x00FC))

/-- R130: the condition codes. -/
def Obligations.ConditionTable : Prop :=
  ∀ k : Fcw,
    condHolds (Cond.ofCode 0) k = false ∧ condHolds (Cond.ofCode 1) k = (k.s ^^ k.v) ∧
    condHolds (Cond.ofCode 2) k = (k.z || (k.s ^^ k.v)) ∧ condHolds (Cond.ofCode 3) k = (k.c || k.z) ∧
    condHolds (Cond.ofCode 4) k = k.v ∧ condHolds (Cond.ofCode 5) k = k.s ∧ condHolds (Cond.ofCode 6) k = k.z ∧
    condHolds (Cond.ofCode 7) k = k.c ∧
    ∀ c : BitVec 4, condHolds (Cond.ofCode (c + 8)) k = !condHolds (Cond.ofCode c) k

/-- After a compare of `a` with `b` the condition codes mean what they are called, signed and unsigned (R130, R303). -/
def Obligations.ComparisonsMeanOrder : Prop :=
  ∀ (z : Size) (a b : BitVec z.bits) (k : Fcw),
    condHolds .lt (compareFlags a b k) = decide (a.toInt < b.toInt) ∧
    condHolds .le (compareFlags a b k) = decide (a.toInt ≤ b.toInt) ∧
    condHolds .ge (compareFlags a b k) = decide (b.toInt ≤ a.toInt) ∧
    condHolds .gt (compareFlags a b k) = decide (b.toInt < a.toInt) ∧
    condHolds .c (compareFlags a b k) = decide (a.toNat < b.toNat) ∧
    condHolds .ule (compareFlags a b k) = decide (a.toNat ≤ b.toNat) ∧
    condHolds .ugt (compareFlags a b k) = decide (b.toNat < a.toNat) ∧
    condHolds .z (compareFlags a b k) = decide (a = b)

/-! ### Memory -/

/-- R80 to R83: what reads and writes of bytes, words and long words give and leave at addresses that need no alignment
policy, and the transactions they make, with the status codes of R71: a byte read shows its whole word on the lines, a
byte write puts the byte on both halves, and a long word is two words, the lower address first (D27, log entry 36). -/
def Obligations.MemoryAccess : Prop :=
  ∀ (sp : Space) (a : Word) (s : State),
    (load .b sp a s =
      .ok (s.peek sp a, s.note (.transfer sp.status s.fcw.sys true true a (s.peekWord sp (evenAddress a))))) ∧
    (a.getLsbD 0 = false → load .w sp a s =
      .ok (s.peek sp a ++ s.peek sp (a + 1),
        s.note (.transfer sp.status s.fcw.sys true false a (s.peek sp a ++ s.peek sp (a + 1))))) ∧
    (a.getLsbD 0 = false → load .l sp a s =
      .ok ((s.peek sp a ++ s.peek sp (a + 1)) ++ (s.peek sp (a + 2) ++ s.peek sp (a + 3)),
        (s.note (.transfer sp.status s.fcw.sys true false a (s.peek sp a ++ s.peek sp (a + 1)))).note
          (.transfer sp.status s.fcw.sys true false (a + 2) (s.peek sp (a + 2) ++ s.peek sp (a + 3))))) ∧
    (∀ v : Byte, ∃ t, store .b sp a v s = .ok t ∧ t.peek sp a = v ∧
      (∀ k, k ≠ s.key sp a → Memory.read t.mem k = Memory.read s.mem k) ∧
      t.bus = .transfer sp.status s.fcw.sys false true a (v ++ v) :: s.bus) ∧
    (∀ v : Word, a.getLsbD 0 = false → ∃ t, store .w sp a v s = .ok t ∧
      t.peek sp a = v.extractLsb' 8 8 ∧ t.peek sp (a + 1) = v.extractLsb' 0 8 ∧
      (∀ k, k ≠ s.key sp a → k ≠ s.key sp (a + 1) → Memory.read t.mem k = Memory.read s.mem k) ∧
      t.bus = .transfer sp.status s.fcw.sys false false a v :: s.bus) ∧
    (∀ v : Long, a.getLsbD 0 = false → store .l sp a v s =
      ((store .w sp a (v.extractLsb' 16 16) s).bind fun t => store .w sp (a + 2) (v.extractLsb' 0 16) t))

/-- A value stored is the value read back, at every size and alignment policy, and every byte outside it reads as before
(R78, R84). -/
def Obligations.StoredValueReadsBack : Prop :=
  ∀ (z : Size) (sp : Space) (a : Word) (v : BitVec z.bits) (s t : State), store z sp a v s = .ok t →
    (∃ u, load z sp a t = .ok (v, u)) ∧
    ∀ k, s.covers z sp a k = false → Memory.read t.mem k = Memory.read s.mem k

/-! ### Frames -/

/-- An instruction with one destination register changes no other register, no byte of memory and no special
register (R20, R21, R24). -/
def Obligations.RegisterDestinationFrame : Prop :=
  ∀ (i : Instr) (z : Size) (c : Reg) (s t : State), target i = some (z, c) → exec i s = .next t →
    (∀ r, regCovers z c r = false → t.word r = s.word r) ∧
    (s.fcw.sys = true → t.nsp = s.nsp) ∧ (s.fcw.sys = false → t.regs[15] = s.regs[15]) ∧
    (z = .b → ∀ b, b ≠ c → t.byte b = s.byte b) ∧
    (∀ k, Memory.read t.mem k = Memory.read s.mem k) ∧
    t.psap = s.psap ∧ t.refresh = s.refresh ∧ t.mob = s.mob ∧ t.halted = s.halted ∧ t.nmiPending = s.nmiPending ∧
    t.fcw.sys = s.fcw.sys ∧ t.fcw.epa = s.fcw.epa ∧ t.fcw.vie = s.fcw.vie ∧ t.fcw.nvie = s.fcw.nvie

/-- An instruction with a memory destination changes no register, no special register, and no byte of memory outside
the place `storage` computes (R83). -/
def Obligations.MemoryDestinationFrame : Prop :=
  ∀ (i : Instr) (z : Size) (sp : Space) (a : Word) (s t : State), storage i s = some (z, sp, a) → exec i s = .next t →
    (∀ k, s.covers z sp a k = false → Memory.read t.mem k = Memory.read s.mem k) ∧
    t.regs = s.regs ∧ t.nsp = s.nsp ∧ t.pc = s.pc ∧ t.psap = s.psap ∧ t.refresh = s.refresh ∧ t.mob = s.mob ∧
    t.halted = s.halted ∧ t.nmiPending = s.nmiPending ∧ t.fcw.sys = s.fcw.sys ∧ t.fcw.epa = s.fcw.epa ∧
    t.fcw.vie = s.fcw.vie ∧ t.fcw.nvie = s.fcw.nvie

/-- Loads, stores, stack and exchange instructions, sign extensions, TCC, RES, SET and program control change no bit of
FCW (R36; files 40 and 44). -/
def Obligations.FlagsKept : Prop :=
  ∀ (i : Instr) (s t : State), keepsFlags i = true → exec i s = .next t → t.fcw = s.fcw

/-! ### Load and exchange -/

/-- LD, LDB, LDL and LDR, LDRB, LDRL, into a register and into memory (R203, R204, R211, R212). The base of the relative
forms is the PC of the next instruction: D16, log entry 38. -/
def Obligations.LoadsAndStores : Prop :=
  ((∀ (d : Reg) (src : LdSrc) (s : State),
     (s.ldReady .w src = true → Answers (exec (.ld d src) s) (s.setWord d (s.ldValue .w src))) ∧
     (s.ldReady .b src = true → Answers (exec (.ldb d src) s) (s.setByte d (s.ldValue .b src))) ∧
     (pairOk d = true → s.ldReady .l src = true → Answers (exec (.ldl d src) s) (s.setLong d (s.ldValue .l src)))) ∧
   (∀ (d : Reg) (disp : Word) (s : State),
     Answers (exec (.ldrb d disp) s) (s.setByte d (s.valueAt .b .prog (s.pc + disp))) ∧
     (s.reaches .w (s.pc + disp) = true →
       Answers (exec (.ldr d disp) s) (s.setWord d (s.valueAt .w .prog (s.pc + disp))) ∧
       (pairOk d = true → Answers (exec (.ldrl d disp) s) (s.setLong d (s.valueAt .l .prog (s.pc + disp))))))) ∧
  ((∀ (m : LdMem) (c : Reg) (s : State),
     Answers (exec (.ldbStore m c) s) (s.putAt .b (ldEA m s).1 (ldEA m s).2 (s.byte c)) ∧
     (s.reaches .w (ldEA m s).2 = true →
       Answers (exec (.ldStore m c) s) (s.putAt .w (ldEA m s).1 (ldEA m s).2 (s.word c)) ∧
       (pairOk c = true → Answers (exec (.ldlStore m c) s) (s.putAt .l (ldEA m s).1 (ldEA m s).2 (s.long c))))) ∧
   (∀ (disp : Word) (c : Reg) (s : State),
     Answers (exec (.ldrbStore disp c) s) (s.putAt .b .prog (s.pc + disp) (s.byte c)) ∧
     (s.reaches .w (s.pc + disp) = true →
       Answers (exec (.ldrStore disp c) s) (s.putAt .w .prog (s.pc + disp) (s.word c)) ∧
       (pairOk c = true → Answers (exec (.ldrlStore disp c) s) (s.putAt .l .prog (s.pc + disp) (s.long c))))))

/-- Immediate loads, LDK and CLR, into a register or memory (R201, R205, R208). -/
def Obligations.LoadsConstant : Prop :=
  (∀ (d : Dst) (s : State), s.dstReady .w d = true →
    Answers (exec (.clr d) s) (s.putDst .w d 0) ∧ ∀ v, Answers (exec (.ldImm d v) s) (s.putDst .w d v)) ∧
  (∀ (d : Dst) (s : State),
    Answers (exec (.clrb d) s) (s.putDst .b d 0) ∧ ∀ v, Answers (exec (.ldbImm d v) s) (s.putDst .b d v)) ∧
  (∀ (d : Reg) (s : State),
    (∀ v, Answers (exec (.ldbImmCompact d v) s) (s.setByte d v)) ∧
    (∀ v, pairOk d = true → Answers (exec (.ldlImm d v) s) (s.setLong d v)) ∧
    ∀ k, Answers (exec (.ldk d k) s) (s.setWord d (0#12 ++ k)))

/-- LDA and LDAR load the effective address, odd ones too, and read for nothing at it (R206, R207, R90). The model's
choices: the read is one of the word around the address (log entry 28), and the base of LDAR is the PC of the next
instruction (D16, log entry 38). -/
def Obligations.LoadsAddress : Prop :=
  ∀ (d : Reg) (s : State),
    (∀ m : AddrForm, Does (exec (.lda d m) s) (s.setWord d (addrEA m s).2)
      (s.readEvents .w (addrEA m s).1 (addrEA m s).2)) ∧
    (∀ disp : Word, Does (exec (.ldar d disp) s) (s.setWord d (s.pc + disp)) (s.readEvents .w .prog (s.pc + disp)))

/-- EX and EXB swap two registers, or a register and memory (R202). -/
def Obligations.Exchanges : Prop :=
  ∀ (d : Reg) (s : State),
    (∀ c, Answers (exec (.ex d (.reg c)) s) ((s.setWord c (s.word d)).setWord d (s.word c))) ∧
    (∀ c, Answers (exec (.exb d (.reg c)) s) ((s.setByte c (s.byte d)).setByte d (s.byte c))) ∧
    (∀ m, s.memReady .w m = true → Answers (exec (.ex d (.mem m)) s)
      ((s.putAt .w (memEA m s).1 (memEA m s).2 (s.word d)).setWord d (s.dstValue .w (.mem m)))) ∧
    (∀ m, Answers (exec (.exb d (.mem m)) s)
      ((s.putAt .b (memEA m s).1 (memEA m s).2 (s.byte d)).setByte d (s.dstValue .b (.mem m))))

/-- LDM: `n + 1` registers in order, R0 after R15, from or to ascending addresses computed once, before the first transfer
(R209, R210; once: decision D29). The load form changes these registers alone and the store form these words alone:
nothing else changes, but for the bus record. -/
def Obligations.LdmMovesRegisters : Prop :=
  ∀ (c : Reg) (m : Mem) (n : BitVec 4) (s : State), s.memReady .w m = true →
    (∃ t, exec (.ldmLoad c m n) s = .next t ∧
      (∀ k : Nat, k ≤ n.toNat → t.word (c + BitVec.ofNat 4 k) =
        s.valueAt .w (memEA m s).1 ((memEA m s).2 + 2 * BitVec.ofNat 16 k)) ∧
      (∀ r, (∀ k : Nat, k ≤ n.toNat → r ≠ c + BitVec.ofNat 4 k) → t.word r = s.word r) ∧
      (s.fcw.sys = true → t.nsp = s.nsp) ∧ (s.fcw.sys = false → t.regs[15] = s.regs[15]) ∧
      t = { s with regs := t.regs, nsp := t.nsp, bus := t.bus, trace := t.trace }) ∧
    (∃ t, exec (.ldmStore m c n) s = .next t ∧
      (∀ k : Nat, k ≤ n.toNat → t.valueAt .w (memEA m s).1 ((memEA m s).2 + 2 * BitVec.ofNat 16 k) =
        s.word (c + BitVec.ofNat 4 k)) ∧
      (∀ x, (∀ k : Nat, k ≤ n.toNat → s.covers .w (memEA m s).1 ((memEA m s).2 + 2 * BitVec.ofNat 16 k) x = false) →
        Memory.read t.mem x = Memory.read s.mem x) ∧
      t = { s with mem := t.mem, bus := t.bus, trace := t.trace })

/-- PUSH and PUSHL take the source, lower the pointer and store; POP and POPL load, raise the pointer and write the
destination, which must be separate from the pointer (R213, R214). A push of its own pointer register, which R1126 lists
and R214 gives a value, runs: log entry 10. -/
def Obligations.StackInstructions : Prop :=
  ∀ (sp : Reg) (s : State),
    (∀ src : Src .w, s.srcReady .w src = true → s.reaches .w (s.word sp - 2) = true →
      Answers (exec (.pushw sp src) s)
        ((s.setWord sp (s.word sp - 2)).putAt .w (dsp sp) (s.word sp - 2) (s.srcValue .w src))) ∧
    (∀ src : Dst, s.dstReady .l src = true → s.reaches .l (s.word sp - 4) = true →
      Answers (exec (.pushl sp src) s)
        ((s.setWord sp (s.word sp - 4)).putAt .l (dsp sp) (s.word sp - 4) (s.dstValue .l src))) ∧
    (∀ d : Dst, popSeparate .w sp d = true → s.reaches .w (s.word sp) = true → s.dstReady .w d = true →
      Answers (exec (.pop d sp) s)
        ((s.setWord sp (s.word sp + 2)).putDst .w d (s.valueAt .w (dsp sp) (s.word sp)))) ∧
    (∀ d : Dst, popSeparate .l sp d = true → s.reaches .l (s.word sp) = true → s.dstReady .l d = true →
      Answers (exec (.popl d sp) s)
        ((s.setWord sp (s.word sp + 4)).putDst .l d (s.valueAt .l (dsp sp) (s.word sp))))

/-! ### Arithmetic -/

/-- ADD, ADC, SUB, SBC and their byte and long forms: the sum or difference modulo the width, C the carry or borrow, V
the signed overflow, Z and S of the result; the byte forms also tell addition and subtraction in D and the carry or
borrow of bit 3 in H (R300 to R302, R312, R313, R37). -/
def Obligations.AddAndSubtract : Prop :=
  (ComputesReg .w .add (fun a b k => sumOf a b false k) ∧
   ComputesReg .b .addb (fun a b k => ((sumOf a b false k).1, sumDigits a b false (sumOf a b false k).2)) ∧
   ComputesReg .l .addl (fun a b k => sumOf a b false k) ∧
   (∀ (d c : Reg) (s : State),
     Answers (exec (.adc d c) s)
       ((s.setWord d (sumOf (s.word d) (s.word c) s.fcw.c s.fcw).1).setFcw
         (sumOf (s.word d) (s.word c) s.fcw.c s.fcw).2) ∧
     Answers (exec (.adcb d c) s)
       ((s.setByte d (sumOf (s.byte d) (s.byte c) s.fcw.c s.fcw).1).setFcw
         (sumDigits (s.byte d) (s.byte c) s.fcw.c (sumOf (s.byte d) (s.byte c) s.fcw.c s.fcw).2)))) ∧
  (ComputesReg .w .sub (fun a b k => differenceOf a b false k) ∧
   ComputesReg .b .subb (fun a b k =>
     ((differenceOf a b false k).1, differenceDigits a b false (differenceOf a b false k).2)) ∧
   ComputesReg .l .subl (fun a b k => differenceOf a b false k) ∧
   (∀ (d c : Reg) (s : State),
     Answers (exec (.sbc d c) s)
       ((s.setWord d (differenceOf (s.word d) (s.word c) s.fcw.c s.fcw).1).setFcw
         (differenceOf (s.word d) (s.word c) s.fcw.c s.fcw).2) ∧
     Answers (exec (.sbcb d c) s)
       ((s.setByte d (differenceOf (s.byte d) (s.byte c) s.fcw.c s.fcw).1).setFcw
         (differenceDigits (s.byte d) (s.byte c) s.fcw.c (differenceOf (s.byte d) (s.byte c) s.fcw.c s.fcw).2))))

/-- CP, CPB and CPL set the flags of the difference and change nothing else; with an immediate, memory is the
minuend (R303, R304). -/
def Obligations.CompareResult : Prop :=
  ComputesFlags .w .cp compareOf ∧ ComputesFlags .b .cpb compareOf ∧ ComputesFlags .l .cpl compareOf ∧
  (∀ (m : Mem) (v : Word) (s : State), s.memReady .w m = true →
    Answers (exec (.cpImm m v) s) (s.setFcw (compareOf (s.dstValue .w (.mem m)) v s.fcw))) ∧
  (∀ (m : Mem) (v : Byte) (s : State),
    Answers (exec (.cpbImm m v) s) (s.setFcw (compareOf (s.dstValue .b (.mem m)) v s.fcw)))

/-- INC and DEC by 1 to 16 leave C; NEG sets C by the parameter `NEG_CARRY` (R306, R309, R311; log entry 31). -/
def Obligations.StepAndNegate : Prop :=
  (∀ n : BitVec 4,
    ComputesDst .w (.inc · n) (fun _ v k =>
      ((sumOf v (n.setWidth 16 + 1) false k).1, { (sumOf v (n.setWidth 16 + 1) false k).2 with c := k.c })) ∧
    ComputesDst .b (.incb · n) (fun _ v k =>
      ((sumOf v (n.setWidth 8 + 1) false k).1, { (sumOf v (n.setWidth 8 + 1) false k).2 with c := k.c })) ∧
    ComputesDst .w (.dec · n) (fun _ v k =>
      ((differenceOf v (n.setWidth 16 + 1) false k).1,
        { (differenceOf v (n.setWidth 16 + 1) false k).2 with c := k.c })) ∧
    ComputesDst .b (.decb · n) (fun _ v k =>
      ((differenceOf v (n.setWidth 8 + 1) false k).1,
        { (differenceOf v (n.setWidth 8 + 1) false k).2 with c := k.c }))) ∧
  ComputesDst .w .neg (fun s v k =>
    (-v, { (differenceOf 0 v false k).2 with
      c := match s.cfg.negCarry with | .borrow => decide (v ≠ 0) | .zero => decide (v = 0) })) ∧
  ComputesDst .b .negb (fun s v k =>
    (-v, { (differenceOf 0 v false k).2 with
      c := match s.cfg.negCarry with | .borrow => decide (v ≠ 0) | .zero => decide (v = 0) }))

/-- MULT and MULTL: the full signed product of the lower half of the destination; C tells that it does not fit the lower
half, V is 0 (R310). EXTSB, EXTS, EXTSL: the sign of the lower half fills the upper half (R308). -/
def Obligations.MultiplyAndExtend : Prop :=
  (∀ (d : Reg) (src : Src .w) (s : State), pairOk d = true → srcOutsidePair d src = true → s.srcReady .w src = true →
    let p := (s.word (d + 1)).toInt * (s.srcValue .w src).toInt
    Answers (exec (.mult d src) s) ((s.setLong d (BitVec.ofInt 32 p)).setFcw
      { s.fcw with c := !fits 16 p, z := decide (p = 0), s := decide (p < 0), v := false })) ∧
  (∀ (d : Reg) (src : Src .l) (s : State), quadOk d = true → srcOutsideQuad d src = true → s.srcReady .l src = true →
    let p := (s.long (d + 2)).toInt * (s.srcValue .l src).toInt
    Answers (exec (.multl d src) s) ((s.setQuad d (BitVec.ofInt 64 p)).setFcw
      { s.fcw with c := !fits 32 p, z := decide (p = 0), s := decide (p < 0), v := false })) ∧
  (∀ (d : Reg) (s : State),
    Answers (exec (.extsb d) s) (s.setWord d ((loByte (s.word d)).signExtend 16)) ∧
    (pairOk d = true → Answers (exec (.exts d) s) (s.setLong d ((s.word (d + 1)).signExtend 32))) ∧
    (quadOk d = true → Answers (exec (.extsl d) s) (s.setQuad d ((s.long (d + 2)).signExtend 64))))

/-- DIV and DIVL: a zero divisor leaves the destination; otherwise there are a quotient and a remainder, and the
destination and the flags follow by the size of the quotient; a quotient of more than 17 (33) bits leaves a free value
(R307; log entries 15 and 42), the remainder's sign is a parameter (log entry 35), and in the 17-bit case the remainder is
written too (log entry 39). -/
def Obligations.DivResult : Prop :=
  (∀ (d : Reg) (src : Src .w) (s : State), pairOk d = true → srcOutsidePair d src = true → s.srcReady .w src = true →
     let a := (s.long d).toInt
     let b := (s.srcValue .w src).toInt
     (b = 0 → Answers (exec (.div d src) s)
       (s.setFcw { s.fcw with c := false, z := true, s := false, v := true }).bumpFree) ∧
     (b ≠ 0 → ∃ q r : Int, a = q * b + r ∧ remainderOk s.cfg.divRemSign a b r ∧
       (fits 16 q = true → Answers (exec (.div d src) s)
         ((s.setLong d (BitVec.ofInt 16 r ++ BitVec.ofInt 16 q)).setFcw
           { s.fcw with c := false, z := decide (q = 0), s := decide (q < 0), v := false }).bumpFree) ∧
       (fits 16 q = false → q.natAbs < 2 ^ 16 → Answers (exec (.div d src) s)
         ((s.setLong d (BitVec.ofInt 16 r ++ BitVec.ofInt 16 q)).setFcw
           { s.fcw with c := true, z := false, s := decide (q < 0), v := true }).bumpFree) ∧
       (2 ^ 16 ≤ q.natAbs → ∃ v, Answers (exec (.div d src) s)
         ((s.setLong d v).setFcw { s.fcw with c := false, z := false, s := false, v := true }).bumpFree))) ∧
  (∀ (d : Reg) (src : Src .l) (s : State), quadOk d = true → srcOutsideQuad d src = true → s.srcReady .l src = true →
     let a := (s.quad d).toInt
     let b := (s.srcValue .l src).toInt
     (b = 0 → Answers (exec (.divl d src) s)
       (s.setFcw { s.fcw with c := false, z := true, s := false, v := true }).bumpFree) ∧
     (b ≠ 0 → ∃ q r : Int, a = q * b + r ∧ remainderOk s.cfg.divRemSign a b r ∧
       (fits 32 q = true → Answers (exec (.divl d src) s)
         ((s.setQuad d (BitVec.ofInt 32 r ++ BitVec.ofInt 32 q)).setFcw
           { s.fcw with c := false, z := decide (q = 0), s := decide (q < 0), v := false }).bumpFree) ∧
       (fits 32 q = false → q.natAbs < 2 ^ 32 → Answers (exec (.divl d src) s)
         ((s.setQuad d (BitVec.ofInt 32 r ++ BitVec.ofInt 32 q)).setFcw
           { s.fcw with c := true, z := false, s := decide (q < 0), v := true }).bumpFree) ∧
       (2 ^ 32 ≤ q.natAbs → ∃ v, Answers (exec (.divl d src) s)
         ((s.setQuad d v).setFcw { s.fcw with c := false, z := false, s := false, v := true }).bumpFree)))

/-- DAB completes on every byte with the flags V, D and H unchanged; where a row of the table applies, it adds the row's
number, sets C as the row says and Z and S by the result (R305). Elsewhere the result and C, Z, S are free values (log
entry 16); DAB always draws from the model's counter (log entry 42). -/
def Obligations.DabFollowsTable : Prop :=
  ∀ (d : Reg) (s : State),
    (∃ (v : Byte) (c z g : Bool),
      Answers (exec (.dab d) s) ((s.setByte d v).setFcw { s.fcw with c := c, z := z, s := g }).bumpFree) ∧
    (∀ w ∈ dabTable, w.covers (s.byte d) s.fcw = true →
      Answers (exec (.dab d) s) ((s.setByte d (s.byte d + w.add)).setFcw
        { resultFlags (s.byte d + w.add) s.fcw with c := w.cAfter }).bumpFree)

/-- Decimal arithmetic: ADCB then DAB, and SBCB then DAB, on two-digit decimal numbers give the decimal sum and
difference with the decimal carry or borrow in C (R301, R305, R312). -/
def Obligations.DecimalArithmetic : Prop :=
  ∀ (d c : Reg) (x y : Nat) (s : State), x < 100 → y < 100 →
    s.byte d = BitVec.ofNat 8 (x / 10 * 16 + x % 10) → s.byte c = BitVec.ofNat 8 (y / 10 * 16 + y % 10) →
    let sum := x + y + s.fcw.c.toNat
    let difference := 100 + x - y - s.fcw.c.toNat
    (∃ t u, exec (.adcb d c) s = .next t ∧ exec (.dab d) t = .next u ∧
      u.byte d = BitVec.ofNat 8 (sum % 100 / 10 * 16 + sum % 10) ∧ u.fcw.c = decide (100 ≤ sum)) ∧
    (∃ t u, exec (.sbcb d c) s = .next t ∧ exec (.dab d) t = .next u ∧
      u.byte d = BitVec.ofNat 8 (difference % 100 / 10 * 16 + difference % 10) ∧
      u.fcw.c = decide (x < y + s.fcw.c.toNat))

/-! ### Logic and bits -/

/-- AND, OR, XOR, COM and TEST: the bitwise result; Z and S by it, and V the parity for bytes alone (R400 to R405). -/
def Obligations.LogicResult : Prop :=
  ComputesReg .w .and (fun a b k => (a &&& b, logicFlags .w (a &&& b) k)) ∧
  ComputesReg .b .andb (fun a b k => (a &&& b, logicFlags .b (a &&& b) k)) ∧
  ComputesReg .w .or (fun a b k => (a ||| b, logicFlags .w (a ||| b) k)) ∧
  ComputesReg .b .orb (fun a b k => (a ||| b, logicFlags .b (a ||| b) k)) ∧
  ComputesReg .w .xor (fun a b k => (a ^^^ b, logicFlags .w (a ^^^ b) k)) ∧
  ComputesReg .b .xorb (fun a b k => (a ^^^ b, logicFlags .b (a ^^^ b) k)) ∧
  ComputesDst .w .com (fun _ v k => (~~~v, logicFlags .w (~~~v) k)) ∧
  ComputesDst .b .comb (fun _ v k => (~~~v, logicFlags .b (~~~v) k)) ∧
  InspectsDst .w .test (logicFlags .w) ∧ InspectsDst .b .testb (logicFlags .b) ∧
  InspectsDst .l .testl (logicFlags .l)

/-- BIT, RES and SET, static and dynamic; the bit number of a dynamic form is the register modulo the width; RES and SET
change one bit and no flag, BIT changes Z alone (R410 to R415). -/
def Obligations.BitResult : Prop :=
  (∀ n : BitVec 4,
    InspectsDst .w (.bit · n) (fun v k => { k with z := !v.getLsbD n.toNat }) ∧
    ComputesDst .w (.resBit · n) (fun _ v k => (v &&& ~~~BitVec.twoPow 16 n.toNat, k)) ∧
    ComputesDst .w (.setBit · n) (fun _ v k => (v ||| BitVec.twoPow 16 n.toNat, k))) ∧
  (∀ n : BitVec 3,
    InspectsDst .b (.bitb · n) (fun v k => { k with z := !v.getLsbD n.toNat }) ∧
    ComputesDst .b (.resBitB · n) (fun _ v k => (v &&& ~~~BitVec.twoPow 8 n.toNat, k)) ∧
    ComputesDst .b (.setBitB · n) (fun _ v k => (v ||| BitVec.twoPow 8 n.toNat, k))) ∧
  (∀ (d c : Reg) (s : State),
    let n := (s.word c).toNat % 16
    let m := (s.word c).toNat % 8
    Answers (exec (.bitDyn d c) s) (s.setFcw { s.fcw with z := !(s.word d).getLsbD n }) ∧
    Answers (exec (.bitbDyn d c) s) (s.setFcw { s.fcw with z := !(s.byte d).getLsbD m }) ∧
    Answers (exec (.resBitDyn d c) s) (s.setWord d (s.word d &&& ~~~BitVec.twoPow 16 n)) ∧
    Answers (exec (.resBitBDyn d c) s) (s.setByte d (s.byte d &&& ~~~BitVec.twoPow 8 m)) ∧
    Answers (exec (.setBitDyn d c) s) (s.setWord d (s.word d ||| BitVec.twoPow 16 n)) ∧
    Answers (exec (.setBitBDyn d c) s) (s.setByte d (s.byte d ||| BitVec.twoPow 8 m)))

/-- TSET copies the sign to S and writes all ones; TCC sets bit 0 when the condition holds and does nothing
otherwise (R406, R480). -/
def Obligations.TestAndSet : Prop :=
  ComputesDst .w .tset (fun _ v k => (0xFFFF, { k with s := v.msb })) ∧
  ComputesDst .b .tsetb (fun _ v k => (0xFF, { k with s := v.msb })) ∧
  (∀ (cc : Cond) (d : Reg) (s : State),
    (condHolds cc s.fcw = true →
      Answers (exec (.tcc cc d) s) (s.setWord d (s.word d ||| 1)) ∧
      Answers (exec (.tccb cc d) s) (s.setByte d (s.byte d ||| 1))) ∧
    (condHolds cc s.fcw = false → Answers (exec (.tcc cc d) s) s ∧ Answers (exec (.tccb cc d) s) s))

/-! ### Shifts and rotates -/

/-- RL, RLC, RR and RRC by one or two positions, as rotations of the operand or of the operand with C (R500 to R504);
RLDB and RRDB move digits between two registers (R505, R506). -/
def Obligations.RotateResult : Prop :=
  (∀ two : Bool,
    let k := if two then 2 else 1
    ShiftsReg .w (.rl · two) (fun s x f => rotatedLeft s.cfg.shiftV k x f) ∧
    ShiftsReg .b (.rlb · two) (fun s x f => rotatedLeft s.cfg.shiftV k x f) ∧
    ShiftsReg .w (.rr · two) (fun s x f => rotatedRight s.cfg.shiftV k x f) ∧
    ShiftsReg .b (.rrb · two) (fun s x f => rotatedRight s.cfg.shiftV k x f) ∧
    ShiftsReg .w (.rlc · two) (fun s x f => rotatedLeftCarry s.cfg.shiftV k x f) ∧
    ShiftsReg .b (.rlcb · two) (fun s x f => rotatedLeftCarry s.cfg.shiftV k x f) ∧
    ShiftsReg .w (.rrc · two) (fun s x f => rotatedRightCarry s.cfg.shiftV k x f) ∧
    ShiftsReg .b (.rrcb · two) (fun s x f => rotatedRightCarry s.cfg.shiftV k x f)) ∧
  (∀ (d c : Reg) (s : State), d ≠ c →
    let a := s.byte d
    let b := s.byte c
    Answers (exec (.rldb d c) s)
      (((s.setByte d (a &&& 0xF0 ||| b >>> 4)).setByte c (b <<< 4 ||| a &&& 0x0F)).setFcw
        { s.fcw with z := decide (a &&& 0xF0 ||| b >>> 4 = 0) }) ∧
    Answers (exec (.rrdb d c) s)
      (((s.setByte d (a &&& 0xF0 ||| b &&& 0x0F)).setByte c (a <<< 4 ||| b >>> 4)).setFcw
        { s.fcw with z := decide (a &&& 0xF0 ||| b &&& 0x0F = 0) }))

/-- The static shifts: SLA and SLL left by the count, SRA and SRL right by the negated count; the dynamic shifts: the
whole count register as a signed number, left when positive, right when negative; a count beyond the width shifts
on (R500, R507, R510, R511, R520 to R523). -/
def Obligations.ShiftResult : Prop :=
  ((∀ q : BitVec 15,
     let left {n : Nat} (clears : Bool) (s : State) (x : BitVec n) (f : Fcw) :=
       if q = 0 then notShifted (s.cfg.staticShift0ClearsC && clears) x f else shiftedLeft s.cfg.shiftV q.toNat x f
     ShiftsReg .w (.sla · q) (left true) ∧ ShiftsReg .w (.sll · q) (left true) ∧
     ShiftsReg .l (.slal · q) (left false) ∧ ShiftsReg .l (.slll · q) (left false) ∧
     ShiftsReg .w (.sra · q) (fun _ x f => shiftedArithmetic (32768 - q.toNat) x f) ∧
     ShiftsReg .l (.sral · q) (fun _ x f => shiftedArithmetic (32768 - q.toNat) x f) ∧
     ShiftsReg .w (.srl · q) (fun _ x f => shiftedLogical (32768 - q.toNat) x f) ∧
     ShiftsReg .l (.srll · q) (fun _ x f => shiftedLogical (32768 - q.toNat) x f)) ∧
   (∀ q : BitVec 7,
     let left (s : State) (x : Byte) (f : Fcw) :=
       if q = 0 then notShifted s.cfg.staticShift0ClearsC x f else shiftedLeft s.cfg.shiftV q.toNat x f
     ShiftsReg .b (.slab · q) left ∧ ShiftsReg .b (.sllb · q) left ∧
     ShiftsReg .b (.srab · q) (fun _ x f => shiftedArithmetic (128 - q.toNat) x f) ∧
     ShiftsReg .b (.srlb · q) (fun _ x f => shiftedLogical (128 - q.toNat) x f))) ∧
  (∀ c : Reg,
     ShiftsReg .w (.sda · c) (fun s => dynamicShift s.cfg.shiftV true shiftedArithmetic (s.word c).toInt) ∧
     ShiftsReg .b (.sdab · c) (fun s => dynamicShift s.cfg.shiftV true shiftedArithmetic (s.word c).toInt) ∧
     ShiftsReg .l (.sdal · c) (fun s => dynamicShift s.cfg.shiftV false shiftedArithmetic (s.word c).toInt) ∧
     ShiftsReg .w (.sdl · c) (fun s => dynamicShift s.cfg.shiftV true shiftedLogical (s.word c).toInt) ∧
     ShiftsReg .b (.sdlb · c) (fun s => dynamicShift s.cfg.shiftV true shiftedLogical (s.word c).toInt) ∧
     ShiftsReg .l (.sdll · c) (fun s => dynamicShift s.cfg.shiftV false shiftedLogical (s.word c).toInt))

/-! ### Program control -/

/-- JP, JR, DJNZ and DBJNZ: where they go, from the PC of the next instruction (R602 to R604, R120); a taken JP @Rd reads
at its target for nothing (R90, as one word: log entry 28), and a jump not taken reads nothing. -/
def Obligations.JumpResult : Prop :=
  ∀ s : State,
    (∀ (cc : Cond) (m : Mem),
      (condHolds cc s.fcw = true → Does (exec (.jp cc m) s) (s.setPc (memEA m s).2) (s.targetEvents m)) ∧
      (condHolds cc s.fcw = false → exec (.jp cc m) s = .next s)) ∧
    (∀ (cc : Cond) (e : BitVec 8), exec (.jr cc e) s =
      .next (if condHolds cc s.fcw then s.setPc (BitVec.ofInt 16 (s.pc.toNat + 2 * e.toInt)) else s)) ∧
    (∀ (c : Reg) (e : BitVec 7), exec (.djnz c e) s =
      .next (if s.word c = 1 then s.setWord c 0
       else (s.setWord c (s.word c - 1)).setPc (BitVec.ofInt 16 (s.pc.toNat - 2 * e.toNat)))) ∧
    (∀ (c : Reg) (e : BitVec 7), exec (.dbjnz c e) s =
      .next (if s.byte c = 1 then s.setByte c 0
       else (s.setByte c (s.byte c - 1)).setPc (BitVec.ofInt 16 (s.pc.toNat - 2 * e.toNat))))

/-- CALL and CALR push the PC of the next instruction and go to their target, CALL @Rd after a read at it for nothing (R90,
as one word: log entry 28); RET pops PC when its condition holds and does nothing otherwise (R600, R601, R605). -/
def Obligations.CallResult : Prop :=
  ∀ s : State,
    (s.reaches .w (s.word 15 - 2) = true →
      let pushed := (s.setWord 15 (s.word 15 - 2)).putAt .w .stack (s.word 15 - 2) s.pc
      (∀ m : Mem, memAvoids 15 m = true → Does (exec (.call m) s) (pushed.setPc (memEA m s).2)
        (s.writeEvents .w .stack (s.word 15 - 2) s.pc ++ s.targetEvents m)) ∧
      (∀ e : BitVec 12, Does (exec (.calr e) s) (pushed.setPc (BitVec.ofInt 16 (s.pc.toNat - 2 * e.toInt)))
        (s.writeEvents .w .stack (s.word 15 - 2) s.pc))) ∧
    (∀ cc : Cond, condHolds cc s.fcw = true → s.reaches .w (s.word 15) = true → Does (exec (.ret cc) s)
      ((s.setWord 15 (s.word 15 + 2)).setPc (s.valueAt .w .stack (s.word 15))) (s.readEvents .w .stack (s.word 15))) ∧
    (∀ cc : Cond, condHolds cc s.fcw = false → exec (.ret cc) s = .next s)

/-- A call and the return from it restore PC and every register (R600, R605). -/
def Obligations.CallThenReturn : Prop :=
  ∀ (m : Mem) (s t : State), exec (.call m) s = .next t →
    ∃ u, exec (.ret .t) t = .next u ∧ u.pc = s.pc ∧ u.regs = s.regs ∧ u.nsp = s.nsp ∧ u.fcw = s.fcw

/-! ### Block and string -/

/-- One iteration of the block loads: a single form, or a repeating form, which ends at the end of the count or when its
condition holds (R661 to R664, R667, R700, R652). -/
def Obligations.BlockLoadResult : Prop :=
  ∀ (d p r : Reg) (s : State), separate d p r = true →
    (s.reaches .w (s.word p) = true → s.reaches .w (s.word d) = true →
      Answers (exec (.ldi d p r) s) (s.copied .w .up d p r) ∧
      Answers (exec (.ldd d p r) s) (s.copied .w .down d p r) ∧
      ∀ cc, blockLoadCondition cc = true →
        Answers (exec (.ldir d p r cc) s) ((s.copied .w .up d p r).again (condHolds cc s.fcw || s.last r)) ∧
        Answers (exec (.lddr d p r cc) s) ((s.copied .w .down d p r).again (condHolds cc s.fcw || s.last r))) ∧
    Answers (exec (.ldib d p r) s) (s.copied .b .up d p r) ∧
    Answers (exec (.lddb d p r) s) (s.copied .b .down d p r) ∧
    ∀ cc, blockLoadCondition cc = true →
      Answers (exec (.ldirb d p r cc) s) ((s.copied .b .up d p r).again (condHolds cc s.fcw || s.last r)) ∧
      Answers (exec (.lddrb d p r cc) s) ((s.copied .b .down d p r).again (condHolds cc s.fcw || s.last r))

/-- One iteration of the block compares with a register and of the string compares, single and repeating: the latter
end on a match or at the end of the count (R653 to R660, R665, R666, R652). -/
def Obligations.BlockCompareResult : Prop :=
  (∀ (d p r : Reg) (cc : Cond) (s : State),
     (separate d p r = true → s.reaches .w (s.word p) = true →
       Answers (exec (.cpi d p r cc) s) (s.compared .w .up d p r cc).2 ∧
       Answers (exec (.cpd d p r cc) s) (s.compared .w .down d p r cc).2 ∧
       Answers (exec (.cpir d p r cc) s)
         ((s.compared .w .up d p r cc).2.again ((s.compared .w .up d p r cc).1 || s.last r)) ∧
       Answers (exec (.cpdr d p r cc) s)
         ((s.compared .w .down d p r cc).2.again ((s.compared .w .down d p r cc).1 || s.last r))) ∧
     (separate (byteHome d) p r = true →
       Answers (exec (.cpib d p r cc) s) (s.compared .b .up d p r cc).2 ∧
       Answers (exec (.cpdb d p r cc) s) (s.compared .b .down d p r cc).2 ∧
       Answers (exec (.cpirb d p r cc) s)
         ((s.compared .b .up d p r cc).2.again ((s.compared .b .up d p r cc).1 || s.last r)) ∧
       Answers (exec (.cpdrb d p r cc) s)
         ((s.compared .b .down d p r cc).2.again ((s.compared .b .down d p r cc).1 || s.last r)))) ∧
  (∀ (d p r : Reg) (cc : Cond) (s : State), separate d p r = true →
     (s.reaches .w (s.word p) = true → s.reaches .w (s.word d) = true →
       Answers (exec (.cpsi d p r cc) s) (s.matched .w .up d p r cc).2 ∧
       Answers (exec (.cpsd d p r cc) s) (s.matched .w .down d p r cc).2 ∧
       Answers (exec (.cpsir d p r cc) s)
         ((s.matched .w .up d p r cc).2.again ((s.matched .w .up d p r cc).1 || s.last r)) ∧
       Answers (exec (.cpsdr d p r cc) s)
         ((s.matched .w .down d p r cc).2.again ((s.matched .w .down d p r cc).1 || s.last r))) ∧
     Answers (exec (.cpsib d p r cc) s) (s.matched .b .up d p r cc).2 ∧
     Answers (exec (.cpsdb d p r cc) s) (s.matched .b .down d p r cc).2 ∧
     Answers (exec (.cpsirb d p r cc) s)
       ((s.matched .b .up d p r cc).2.again ((s.matched .b .up d p r cc).1 || s.last r)) ∧
     Answers (exec (.cpsdrb d p r cc) s)
       ((s.matched .b .down d p r cc).2.again ((s.matched .b .down d p r cc).1 || s.last r)))

/-- One iteration of the translations and of the translations with test, whose scan ends as `TRT_REPEAT_UNTIL`
says (R670 to R678; log entry 34). The string byte is an unsigned index into the table: log entry 37. -/
def Obligations.TranslateResult : Prop :=
  ∀ (d t r : Reg) (s : State), separate d t r = true →
    Answers (exec (.trib d t r) s) (s.translated .up d t r) ∧
    Answers (exec (.trdb d t r) s) (s.translated .down d t r) ∧
    Answers (exec (.trirb d t r) s) ((s.translated .up d t r).again (s.last r)) ∧
    Answers (exec (.trdrb d t r) s) ((s.translated .down d t r).again (s.last r)) ∧
    (d ≠ 1 → t ≠ 1 → r ≠ 1 →
      let ends := match s.cfg.trtRepeatUntil with
        | .nonzero => s.entry d t != 0
        | .zero => s.entry d t == 0
      Answers (exec (.trtib d t r) s) (s.tested .up d t r) ∧
      Answers (exec (.trtdb d t r) s) (s.tested .down d t r) ∧
      Answers (exec (.trtirb d t r) s) ((s.tested .up d t r).again (ends || s.last r)) ∧
      Answers (exec (.trtdrb d t r) s) ((s.tested .down d t r).again (ends || s.last r)))

/-- LDIRB as a whole copies a block that does not overlap its copy: with count `n` (65536 for 0), `n` iterations end it,
the bytes are copied, every other byte keeps its value, the pointers are past the blocks and Z and V are set (R664,
R652). -/
def Obligations.LdirbCopiesBlock : Prop :=
  ∀ (d p r : Reg) (e : Word) (s : State), separate d p r = true →
    let n := if s.word r = 0 then 65536 else (s.word r).toNat
    (∀ j, j < n → ∀ k, k < n →
      s.key (dsp p) (s.word p + BitVec.ofNat 16 j) ≠ s.key (dsp d) (s.word d + BitVec.ofNat 16 k)) →
    ∃ t, repeatBlock (.ldirb d p r .f) e n s = .next t ∧ t.pc = e ∧
      (∀ j, j < n → t.peek (dsp d) (s.word d + BitVec.ofNat 16 j) = s.peek (dsp p) (s.word p + BitVec.ofNat 16 j)) ∧
      (∀ x, (∀ j, j < n → x ≠ s.key (dsp d) (s.word d + BitVec.ofNat 16 j)) →
        Memory.read t.mem x = Memory.read s.mem x) ∧
      t.word r = 0 ∧ t.word p = s.word p + BitVec.ofNat 16 n ∧ t.word d = s.word d + BitVec.ofNat 16 n ∧
      t.fcw = { s.fcw with z := true, v := true }

/-! ### Input and output -/

/-- IN, SIN, OUT and SOUT: a read is one transaction in the space and at the port of the instruction and takes the next
data lines of the environment (a free value where none are listed, log entry 18), a byte from the half its address
selects; a write is one transaction (R752, R760, R91). -/
def Obligations.PortResult : Prop :=
  ∀ (c : Reg) (s : State),
    (∀ p : PortForm,
      RunsWith (.inp c p) s ((takePort s).2.setWord c (takePort s).1) [s.portRead .w .standard (portOf p s)] ∧
      RunsWith (.inpb c p) s ((takePort s).2.setByte c (portValue .b (portOf p s) (takePort s).1))
        [s.portRead .b .standard (portOf p s)] ∧
      RunsWith (.outp p c) s s [s.portWrite .w .standard (portOf p s) (s.word c)] ∧
      RunsWith (.outpb p c) s s [s.portWrite .b .standard (portOf p s) (s.byte c)]) ∧
    (∀ port : Word,
      RunsWith (.sin c port) s ((takePort s).2.setWord c (takePort s).1) [s.portRead .w .special port] ∧
      RunsWith (.sinb c port) s ((takePort s).2.setByte c (portValue .b port (takePort s).1))
        [s.portRead .b .special port] ∧
      RunsWith (.sout port c) s s [s.portWrite .w .special port (s.word c)] ∧
      RunsWith (.soutb port c) s s [s.portWrite .b .special port (s.byte c)])

/-- One iteration of the block inputs and outputs, single and repeating, with its transactions: an input reads the port,
then writes memory; an output reads memory, then writes the port (R753 to R757, R761 to R765, R700, R652). The data lines
of a port read come from the environment (a free value where none are listed, log entry 18). -/
def Obligations.BlockPortResult : Prop :=
  (∀ (d p r : Reg) (s : State), separate d p r = true →
     let events (z : Size) (sp : IoSpace) : List BusEvent :=
       s.writeEvents z (dsp d) (s.word d) (portValue z (s.word p) (takePort s).1) ++ [s.portRead z sp (s.word p)]
     (s.reaches .w (s.word d) = true →
       RunsWith (.ini d p r) s (s.inputted .w .up d p r) (events .w .standard) ∧
       RunsWith (.ind d p r) s (s.inputted .w .down d p r) (events .w .standard) ∧
       RunsWith (.sini d p r) s (s.inputted .w .up d p r) (events .w .special) ∧
       RunsWith (.sind d p r) s (s.inputted .w .down d p r) (events .w .special) ∧
       ∀ cc, blockIoCondition cc = true →
         let done := condHolds cc s.fcw || s.last r
         RunsWith (.inir d p r cc) s ((s.inputted .w .up d p r).again done) (events .w .standard) ∧
         RunsWith (.indr d p r cc) s ((s.inputted .w .down d p r).again done) (events .w .standard) ∧
         RunsWith (.sinir d p r cc) s ((s.inputted .w .up d p r).again done) (events .w .special) ∧
         RunsWith (.sindr d p r cc) s ((s.inputted .w .down d p r).again done) (events .w .special)) ∧
     RunsWith (.inib d p r) s (s.inputted .b .up d p r) (events .b .standard) ∧
     RunsWith (.indb d p r) s (s.inputted .b .down d p r) (events .b .standard) ∧
     RunsWith (.sinib d p r) s (s.inputted .b .up d p r) (events .b .special) ∧
     RunsWith (.sindb d p r) s (s.inputted .b .down d p r) (events .b .special) ∧
     ∀ cc, blockIoCondition cc = true →
       let done := condHolds cc s.fcw || s.last r
       RunsWith (.inirb d p r cc) s ((s.inputted .b .up d p r).again done) (events .b .standard) ∧
       RunsWith (.indrb d p r cc) s ((s.inputted .b .down d p r).again done) (events .b .standard) ∧
       RunsWith (.sinirb d p r cc) s ((s.inputted .b .up d p r).again done) (events .b .special) ∧
       RunsWith (.sindrb d p r cc) s ((s.inputted .b .down d p r).again done) (events .b .special)) ∧
  (∀ (d p r : Reg) (s : State), separate d p r = true →
     let events (z : Size) (sp : IoSpace) : List BusEvent :=
       s.portWrite z sp (s.word d) (s.valueAt z (dsp p) (s.word p)) :: s.readEvents z (dsp p) (s.word p)
     (s.reaches .w (s.word p) = true →
       RunsWith (.outi d p r) s (s.outputted .w .up p r) (events .w .standard) ∧
       RunsWith (.outd d p r) s (s.outputted .w .down p r) (events .w .standard) ∧
       RunsWith (.souti d p r) s (s.outputted .w .up p r) (events .w .special) ∧
       RunsWith (.soutd d p r) s (s.outputted .w .down p r) (events .w .special) ∧
       ∀ cc, blockIoCondition cc = true →
         let done := condHolds cc s.fcw || s.last r
         RunsWith (.otir d p r cc) s ((s.outputted .w .up p r).again done) (events .w .standard) ∧
         RunsWith (.otdr d p r cc) s ((s.outputted .w .down p r).again done) (events .w .standard) ∧
         RunsWith (.sotir d p r cc) s ((s.outputted .w .up p r).again done) (events .w .special) ∧
         RunsWith (.sotdr d p r cc) s ((s.outputted .w .down p r).again done) (events .w .special)) ∧
     RunsWith (.outib d p r) s (s.outputted .b .up p r) (events .b .standard) ∧
     RunsWith (.outdb d p r) s (s.outputted .b .down p r) (events .b .standard) ∧
     RunsWith (.soutib d p r) s (s.outputted .b .up p r) (events .b .special) ∧
     RunsWith (.soutdb d p r) s (s.outputted .b .down p r) (events .b .special) ∧
     ∀ cc, blockIoCondition cc = true →
       let done := condHolds cc s.fcw || s.last r
       RunsWith (.otirb d p r cc) s ((s.outputted .b .up p r).again done) (events .b .standard) ∧
       RunsWith (.otdrb d p r cc) s ((s.outputted .b .down p r).again done) (events .b .standard) ∧
       RunsWith (.sotirb d p r cc) s ((s.outputted .b .up p r).again done) (events .b .special) ∧
       RunsWith (.sotdrb d p r cc) s ((s.outputted .b .down p r).again done) (events .b .special))

/-! ### CPU control and extended instructions -/

/-- The flag instructions, NOP, LDCTLB, DI and EI (R850 to R855, R866, R867): bits 3 to 0 of a field select C, Z, S and V;
COMFLG also complements H; a 0 bit of DI and EI selects VI or NVI. LDCTLB is not privileged and completes in either mode:
log entry 30. The bits of D and H in the flag byte are a parameter (log entry 1). -/
def Obligations.FlagInstructionResult : Prop :=
  ∀ s : State,
    (∀ f : BitVec 4,
      exec (.comflg f) s = .next (s.setFcw { s.fcw with
        c := s.fcw.c ^^ f.getLsbD 3, z := s.fcw.z ^^ f.getLsbD 2, s := s.fcw.s ^^ f.getLsbD 1,
        v := s.fcw.v ^^ f.getLsbD 0, h := !s.fcw.h }) ∧
      exec (.resflg f) s = .next (s.setFcw { s.fcw with
        c := s.fcw.c && !f.getLsbD 3, z := s.fcw.z && !f.getLsbD 2, s := s.fcw.s && !f.getLsbD 1,
        v := s.fcw.v && !f.getLsbD 0 }) ∧
      exec (.setflg f) s = .next (s.setFcw { s.fcw with
        c := s.fcw.c || f.getLsbD 3, z := s.fcw.z || f.getLsbD 2, s := s.fcw.s || f.getLsbD 1,
        v := s.fcw.v || f.getLsbD 0 })) ∧
    exec .nop s = .next s ∧
    (∀ c : Reg, exec (.ldctlbFrom c) s = .next (s.setByte c (s.fcwWord.extractLsb' 0 8)) ∧
      exec (.ldctlbTo c) s = .next (s.setFcw { s.fcw with
        c := (s.byte c).getLsbD 7, z := (s.byte c).getLsbD 6, s := (s.byte c).getLsbD 5, v := (s.byte c).getLsbD 4,
        d := (s.byte c).getLsbD s.cfg.fcwBits.d, h := (s.byte c).getLsbD s.cfg.fcwBits.h }) ∧
      (FcwBits.ok s.cfg.fcwBits = true → exec (.ldctlbTo c) s = .next (s.setFcw
        (Fcw.ofWord s.cfg.fcwBits ((s.fcwWord &&& 0xFF00) ||| (s.byte c).setWidth 16))))) ∧
    (∀ v : BitVec 2,
      Runs (.di v) s (s.setFcw { s.fcw with
        vie := s.fcw.vie && v.getLsbD 1, nvie := s.fcw.nvie && v.getLsbD 0 }) ∧
      Runs (.ei v) s (s.setFcw { s.fcw with
        vie := s.fcw.vie || !v.getLsbD 1, nvie := s.fcw.nvie || !v.getLsbD 0 }))

/-- R51: the latch MOB: MSET drives it low, MRES high, MREQ either way, reset high; no other instruction changes it, and
a step that changes it without a reset runs one of them, fetched at PC. -/
def Obligations.MobLatch : Prop :=
  (∀ s : State, (s.allowed .mset = true → Answers (exec .mset s) { s with mob := false }) ∧
    (s.allowed .mres = true → Answers (exec .mres s) { s with mob := true })) ∧
  (∀ (level : Bool) (d : Reg), ∃ s t : State, exec (.mreq d) s = .next t ∧ s.mob = !level ∧ t.mob = level) ∧
  (∀ (i : Instr) (s t : State), exec i s = .next t → t.mob ≠ s.mob → i = .mset ∨ i = .mres ∨ ∃ d, i = .mreq d) ∧
  (∀ s t : State, s.running = false → step s = .next t → t.mob = true) ∧
  (∀ s t : State, s.running = true → step s = .next t → t.mob ≠ s.mob →
    ∃ i n, s.fetched = some (i, n) ∧ (i = .mset ∨ i = .mres ∨ ∃ d, i = .mreq d) ∧
      ∃ bus trace, exec i { s.atRun n with bus := bus, trace := trace, repeating := false } = .next t)

/-- MBIT samples the request line into S; MREQ samples it twice around its delay and reports in Z and S whether the
request was made and granted (R872, R873). A sample that the environment does not list is a free value: log entry 19. -/
def Obligations.MultiMicroResult : Prop :=
  ∀ s : State,
    Runs .mbit s ((takeMib s).2.setFcw { s.fcw with s := (takeMib s).1 }) ∧
    ∀ d : Reg,
      ((takeMib s).1 = false →
        Runs (.mreq d) s { (takeMib s).2 with fcw := { s.fcw with z := false, s := false }, mob := true }) ∧
      ((takeMib s).1 = true →
        let u := (takeMib s).2.setWord d 0
        Runs (.mreq d) s
          { (takeMib u).2 with fcw := { s.fcw with z := true, s := !(takeMib u).1 }, mob := (takeMib u).1 })

/-- LDCTL moves the control registers FCW, REFRESH, PSAP and NSP, and LDPS loads FCW and PC (R860, R861, R868); REFRESH
changes only by LDCTL (R44), and NSP only by LDCTL or, in normal mode, as R15 (R24, R45). The Row field of a running
REFRESH reads as a free value (log entry 17); FCW has the bit positions of log entry 1. LDPS reads its X form from the Data
space also with R15, as R73 and D17 have it, where R868's own words name the Stack space by the register: log entry 13. -/
def Obligations.ControlRegisterResult : Prop :=
  ((∀ (r : Reg) (s : State),
     Runs (.ldctlTo .fcw r) s (s.setFcw (Fcw.legal s.cfg (s.word r))) ∧
     Runs (.ldctlTo .refresh r) s { s with refresh := s.word r } ∧
     Runs (.ldctlTo .psap r) s { s with psap := s.word r &&& 0xFF00 } ∧
     Runs (.ldctlTo .nsp r) s { s with nsp := s.word r } ∧
     Runs (.ldctlFrom r .fcw) s (s.setWord r s.fcwWord) ∧
     Runs (.ldctlFrom r .psap) s (s.setWord r (s.psap &&& 0xFF00)) ∧
     Runs (.ldctlFrom r .nsp) s (s.setWord r s.nsp) ∧
     (s.cfg.rev = .rev1 ∨ s.refresh.getLsbD 15 = false → Runs (.ldctlFrom r .refresh) s (s.setWord r s.refresh)) ∧
     (s.cfg.rev = .full → s.refresh.getLsbD 15 = true → ∃ row : BitVec 9,
       Runs (.ldctlFrom r .refresh) s (s.setWord r (s.refresh.extractLsb' 9 7 ++ row)).bumpFree)) ∧
   (∀ (m : Mem) (s : State), s.memReady .w m = true →
     Runs (.ldps m) s
       ((s.setFcw (Fcw.legal s.cfg (s.valueAt .w (memEA m s).1 (memEA m s).2))).setPc
         (s.valueAt .w (memEA m s).1 ((memEA m s).2 + 2))))) ∧
  (∀ (i : Instr) (s t : State), exec i s = .next t →
     (t.refresh ≠ s.refresh → ∃ r, i = .ldctlTo .refresh r) ∧
     (t.nsp ≠ s.nsp → s.fcw.sys = false ∨ ∃ r, i = .ldctlTo .nsp r))

/-- The extended instructions with `REV = Full` and EPA = 1: transfers of `n + 1` words between the EPU and registers or
memory, of the flag byte, and the internal operation, each word one transaction (R953 to R957, R959). The words the EPU
gives are those the environment lists, then free values (log entry 20); the address 0 and the width of EPU/CPU transfers
are the model's (log entry 29), the places of D and H in the flag byte a parameter (log entry 1). The X form has the status
of EPU Data also with R15, as R73 and D17 have it, where the words of R953 and R954 name the Stack status by the register:
log entry 13. -/
def Obligations.ExtendedResult : Prop :=
  ∀ (s : State), s.extendedRuns = true → ∀ (a : BitVec 4) (w : BitVec 3) (b : BitVec 2) (h l n : BitVec 4) (x : BitVec 12),
    (∀ c : Reg,
      (∃ t, exec (.ldFromEpu c w b h l n) s = .next t ∧
        (∀ ws rest, s.epuIn = ws ++ rest → ws.length = n.toNat + 1 →
          t.epuIn = rest ∧ (∀ k (hk : k < ws.length), t.word (c + BitVec.ofNat 4 k) = ws[k]) ∧
          t.bus = (ws.map fun v => BusEvent.transfer .epuCpu s.fcw.sys true false 0 v).reverse ++ s.bus) ∧
        (∀ r, (∀ k : Nat, k ≤ n.toNat → r ≠ c + BitVec.ofNat 4 k) → t.word r = s.word r) ∧
        (s.fcw.sys = true → t.nsp = s.nsp) ∧ (s.fcw.sys = false → t.regs[15] = s.regs[15]) ∧
        t = { s with regs := t.regs, nsp := t.nsp, epuIn := t.epuIn, freeCount := t.freeCount, bus := t.bus,
                     trace := t.trace }) ∧
      Does (exec (.ldToEpu c w b h l n) s) s
        ((List.range (n.toNat + 1)).map fun k =>
          BusEvent.transfer .epuCpu s.fcw.sys false false 0 (s.word (c + BitVec.ofNat 4 k))).reverse) ∧
    (∀ m : Mem, s.memReady .w m = true →
      let sp := (memEA m s).1
      let at' (k : Nat) : Word := (memEA m s).2 + 2 * BitVec.ofNat 16 k
      (∃ t, exec (.ldFromEpuMem m b x n) s = .next t ∧
        (∀ ws rest, s.epuIn = ws ++ rest → ws.length = n.toNat + 1 →
          t.epuIn = rest ∧ (∀ k (hk : k < ws.length), t.valueAt .w sp (at' k) = ws[k]) ∧
          t.bus = (ws.zipIdx.map fun v =>
            BusEvent.transfer sp.epuStatus s.fcw.sys false false (evenAddress (at' v.2)) v.1).reverse ++ s.bus) ∧
        (∀ y, (∀ k : Nat, k ≤ n.toNat → s.covers .w sp (at' k) y = false) →
          Memory.read t.mem y = Memory.read s.mem y) ∧
        t = { s with mem := t.mem, epuIn := t.epuIn, freeCount := t.freeCount, bus := t.bus, trace := t.trace }) ∧
      Does (exec (.ldToEpuMem m b x n) s) s
        ((List.range (n.toNat + 1)).map fun k =>
          BusEvent.transfer sp.epuStatus s.fcw.sys true false (evenAddress (at' k)) (s.valueAt .w sp (at' k))).reverse) ∧
    (let v : Byte := (takeEpu s).1.extractLsb' 0 8
     Does (exec (.ldbFcwEpu a b h l) s)
      ((takeEpu s).2.setFcw { s.fcw with
        c := v.getLsbD 7, z := v.getLsbD 6, s := v.getLsbD 5, v := v.getLsbD 4,
        d := v.getLsbD s.cfg.fcwBits.d, h := v.getLsbD s.cfg.fcwBits.h })
      [.transfer .epuCpu s.fcw.sys true false 0 (takeEpu s).1]) ∧
    Does (exec (.ldbEpuFcw a b h l) s) s [.transfer .epuCpu s.fcw.sys false false 0 (s.fcwWord &&& 0x00FF)] ∧
    Does (exec (.epui a b x n) s) s [.epuInternal (0x8E#8 ++ a ++ 1#2 ++ b) (x ++ n)]

/-! ### Stops -/

/-- The stops of the spec's `refuse`: registers that must be separate (R1126, D20), `CALL` through R15 (R600), condition
nibbles a block instruction may not test (R700, D30), odd pair codes of every long operand and quadruple codes other than
0, 4, 8 and 12 (R25, R156, D19). Which registers overlap in POPL of a pair, POP to memory and the byte compares is log
entry 9; PUSH and PUSHL of their own pointer are not refused: log entry 10. -/
def Obligations.RefusedForms : Prop :=
  ((∀ (d : Dst) (sp : Reg) (s : State),
     (popSeparate .w sp d = false → exec (.pop d sp) s = .refused .overlap) ∧
     (popSeparate .l sp d = false → exec (.popl d sp) s = .refused .overlap)) ∧
   (∀ (d : Reg) (src : Src .w) (s : State), pairOk d = true → srcOutsidePair d src = false →
     exec (.mult d src) s = .refused .overlap ∧ exec (.div d src) s = .refused .overlap) ∧
   (∀ (d : Reg) (src : Src .l) (s : State), quadOk d = true → srcOutsideQuad d src = false →
     exec (.multl d src) s = .refused .overlap ∧ exec (.divl d src) s = .refused .overlap) ∧
   (∀ (d : Reg) (s : State), exec (.rldb d d) s = .refused .overlap ∧ exec (.rrdb d d) s = .refused .overlap) ∧
   (∀ (d p r : Reg) (cc : Cond) (s : State), separate d p r = false →
     exec (.ldi d p r) s = .refused .overlap ∧ exec (.ldib d p r) s = .refused .overlap ∧
     exec (.ldd d p r) s = .refused .overlap ∧ exec (.lddb d p r) s = .refused .overlap ∧
     exec (.trib d p r) s = .refused .overlap ∧ exec (.trdb d p r) s = .refused .overlap ∧
     exec (.trirb d p r) s = .refused .overlap ∧ exec (.trdrb d p r) s = .refused .overlap ∧
     exec (.trtib d p r) s = .refused .overlap ∧ exec (.trtdb d p r) s = .refused .overlap ∧
     exec (.trtirb d p r) s = .refused .overlap ∧ exec (.trtdrb d p r) s = .refused .overlap ∧
     exec (.cpi d p r cc) s = .refused .overlap ∧ exec (.cpd d p r cc) s = .refused .overlap ∧
     exec (.cpir d p r cc) s = .refused .overlap ∧ exec (.cpdr d p r cc) s = .refused .overlap ∧
     exec (.cpsi d p r cc) s = .refused .overlap ∧ exec (.cpsd d p r cc) s = .refused .overlap ∧
     exec (.cpsir d p r cc) s = .refused .overlap ∧ exec (.cpsdr d p r cc) s = .refused .overlap ∧
     exec (.cpsib d p r cc) s = .refused .overlap ∧ exec (.cpsdb d p r cc) s = .refused .overlap ∧
     exec (.cpsirb d p r cc) s = .refused .overlap ∧ exec (.cpsdrb d p r cc) s = .refused .overlap ∧
     (blockLoadCondition cc = true →
       exec (.ldir d p r cc) s = .refused .overlap ∧ exec (.ldirb d p r cc) s = .refused .overlap ∧
       exec (.lddr d p r cc) s = .refused .overlap ∧ exec (.lddrb d p r cc) s = .refused .overlap) ∧
     Refuses (.ini d p r) s .overlap ∧ Refuses (.inib d p r) s .overlap ∧ Refuses (.ind d p r) s .overlap ∧
     Refuses (.indb d p r) s .overlap ∧ Refuses (.sini d p r) s .overlap ∧ Refuses (.sinib d p r) s .overlap ∧
     Refuses (.sind d p r) s .overlap ∧ Refuses (.sindb d p r) s .overlap ∧ Refuses (.outi d p r) s .overlap ∧
     Refuses (.outib d p r) s .overlap ∧ Refuses (.outd d p r) s .overlap ∧ Refuses (.outdb d p r) s .overlap ∧
     Refuses (.souti d p r) s .overlap ∧ Refuses (.soutib d p r) s .overlap ∧ Refuses (.soutd d p r) s .overlap ∧
     Refuses (.soutdb d p r) s .overlap ∧
     (blockIoCondition cc = true →
       Refuses (.inir d p r cc) s .overlap ∧ Refuses (.inirb d p r cc) s .overlap ∧
       Refuses (.indr d p r cc) s .overlap ∧ Refuses (.indrb d p r cc) s .overlap ∧
       Refuses (.sinir d p r cc) s .overlap ∧ Refuses (.sinirb d p r cc) s .overlap ∧
       Refuses (.sindr d p r cc) s .overlap ∧ Refuses (.sindrb d p r cc) s .overlap ∧
       Refuses (.otir d p r cc) s .overlap ∧ Refuses (.otirb d p r cc) s .overlap ∧
       Refuses (.otdr d p r cc) s .overlap ∧ Refuses (.otdrb d p r cc) s .overlap ∧
       Refuses (.sotir d p r cc) s .overlap ∧ Refuses (.sotirb d p r cc) s .overlap ∧
       Refuses (.sotdr d p r cc) s .overlap ∧ Refuses (.sotdrb d p r cc) s .overlap)) ∧
   (∀ (d p r : Reg) (cc : Cond) (s : State), separate (byteHome d) p r = false →
     exec (.cpib d p r cc) s = .refused .overlap ∧ exec (.cpdb d p r cc) s = .refused .overlap ∧
     exec (.cpirb d p r cc) s = .refused .overlap ∧ exec (.cpdrb d p r cc) s = .refused .overlap) ∧
   (∀ (d t r : Reg) (s : State), d = 1 ∨ t = 1 ∨ r = 1 →
     exec (.trtib d t r) s = .refused .overlap ∧ exec (.trtdb d t r) s = .refused .overlap ∧
     exec (.trtirb d t r) s = .refused .overlap ∧ exec (.trtdrb d t r) s = .refused .overlap) ∧
   (∀ (m : Mem) (s : State), memAvoids 15 m = false → exec (.call m) s = .refused .callThroughStackPointer) ∧
   (∀ (d p r : Reg) (cc : Cond) (s : State),
     (blockLoadCondition cc = false →
       exec (.ldir d p r cc) s = .refused (.blockCondition cc) ∧
       exec (.ldirb d p r cc) s = .refused (.blockCondition cc) ∧
       exec (.lddr d p r cc) s = .refused (.blockCondition cc) ∧
       exec (.lddrb d p r cc) s = .refused (.blockCondition cc)) ∧
     (blockIoCondition cc = false →
       Refuses (.inir d p r cc) s (.blockCondition cc) ∧ Refuses (.inirb d p r cc) s (.blockCondition cc) ∧
       Refuses (.indr d p r cc) s (.blockCondition cc) ∧ Refuses (.indrb d p r cc) s (.blockCondition cc) ∧
       Refuses (.sinir d p r cc) s (.blockCondition cc) ∧ Refuses (.sinirb d p r cc) s (.blockCondition cc) ∧
       Refuses (.sindr d p r cc) s (.blockCondition cc) ∧ Refuses (.sindrb d p r cc) s (.blockCondition cc) ∧
       Refuses (.otir d p r cc) s (.blockCondition cc) ∧ Refuses (.otirb d p r cc) s (.blockCondition cc) ∧
       Refuses (.otdr d p r cc) s (.blockCondition cc) ∧ Refuses (.otdrb d p r cc) s (.blockCondition cc) ∧
       Refuses (.sotir d p r cc) s (.blockCondition cc) ∧ Refuses (.sotirb d p r cc) s (.blockCondition cc) ∧
       Refuses (.sotdr d p r cc) s (.blockCondition cc) ∧ Refuses (.sotdrb d p r cc) s (.blockCondition cc)))) ∧
  ((RefusesOddPair .addl ∧ RefusesOddPair .subl ∧ RefusesOddPair .cpl ∧
    (∀ (d : Reg) (s : State), pairOk d = false →
      (∀ src, exec (.mult d src) s = .refused (.illegalPair d)) ∧
      (∀ src, exec (.div d src) s = .refused (.illegalPair d)) ∧
      (∀ q, exec (.slal d q) s = .refused (.illegalPair d)) ∧ (∀ q, exec (.slll d q) s = .refused (.illegalPair d)) ∧
      (∀ q, exec (.sral d q) s = .refused (.illegalPair d)) ∧ (∀ q, exec (.srll d q) s = .refused (.illegalPair d)) ∧
      (∀ c, exec (.sdal d c) s = .refused (.illegalPair d)) ∧ (∀ c, exec (.sdll d c) s = .refused (.illegalPair d)) ∧
      exec (.exts d) s = .refused (.illegalPair d) ∧ exec (.testl (.reg d)) s = .refused (.illegalPair d) ∧
      (∀ v, exec (.ldlImm d v) s = .refused (.illegalPair d)) ∧
      (∀ src, s.ldReady .l src = true → exec (.ldl d src) s = .refused (.illegalPair d)) ∧
      (∀ disp, s.reaches .l (s.pc + disp) = true → exec (.ldrl d disp) s = .refused (.illegalPair d)) ∧
      (∀ sp, popSeparate .l sp (.reg d) = true → s.reaches .l (s.word sp) = true →
         exec (.popl (.reg d) sp) s = .refused (.illegalPair d))) ∧
    (∀ (c : Reg) (s : State), pairOk c = false →
      (∀ d, exec (.addl d (.reg c)) s = .refused (.illegalPair c)) ∧
      (∀ d, exec (.subl d (.reg c)) s = .refused (.illegalPair c)) ∧
      (∀ d, exec (.cpl d (.reg c)) s = .refused (.illegalPair c)) ∧
      (∀ d, exec (.ldl d (.reg c)) s = .refused (.illegalPair c)) ∧
      (∀ sp, exec (.pushl sp (.reg c)) s = .refused (.illegalPair c)) ∧
      (∀ m, exec (.ldlStore m c) s = .refused (.illegalPair c)) ∧
      (∀ disp, exec (.ldrlStore disp c) s = .refused (.illegalPair c)) ∧
      (∀ d, quadOk d = true → srcOutsideQuad d (.reg c) = true →
         exec (.multl d (.reg c)) s = .refused (.illegalPair c) ∧ exec (.divl d (.reg c)) s = .refused (.illegalPair c)))) ∧
   (∀ (d : Reg) (s : State), quadOk d = false →
     (∀ src, exec (.multl d src) s = .refused (.illegalQuad d)) ∧ (∀ src, exec (.divl d src) s = .refused (.illegalQuad d)) ∧
     exec (.extsl d) s = .refused (.illegalQuad d)))

/-- A word or long operand, a stack pointer or a fetch at an odd address stops with `MISALIGNED` or `ODD_PC` at
`refuse`; nothing traps (R86, R87). Every operand, pointer and entry sequence that can meet an odd address has its clause,
in the order of the accesses of the instruction. The addresses and orders that are the model's reading: PUSH through its
own pointer (log entry 10), the words of R155 with `REV = Full` (log entry 14), the source of a string compare read first
(D27, log entry 36), the base of LDR (D16, log entry 38), and NSP as the pointer of IRET in normal mode (log entry 46). -/
def Obligations.OddAddressesFault : Prop :=
  ((∀ s : State, s.fetches = true → s.pc.getLsbD 0 = true → s.cfg.oddPc = .refuse → step s = .fault (.oddFetch s.pc)) ∧
   (∀ s : State, s.entryReady = false →
     (s.running = true → s.request.isSome = true → step s = .fault (.misaligned (s.regs[15] - 2))) ∧
     (s.fetches = true → s.pcReady = true → (firstWordTrap (s.peekWord .prog (evenAddress s.pc)) s).isSome = true →
       step s = .fault (.misaligned (s.regs[15] - 2))) ∧
     (∀ i : Instr, (privilegedWords i).isSome = true → s.allowed i = false →
       exec i s = .fault (.misaligned (s.regs[15] - 2))) ∧
     (∀ i : Instr, (extendedWords i).isSome = true → s.extendedRuns = false →
       exec i s = .fault (.misaligned (s.regs[15] - 2))) ∧
     (∀ b : Byte, exec (.sc b) s = .fault (.misaligned (s.regs[15] - 2))))) ∧
  (FaultsOddSource .w .add ∧ FaultsOddSource .l .addl ∧ FaultsOddSource .w .cp ∧ FaultsOddSource .l .cpl ∧
   FaultsOddSource .w .sub ∧ FaultsOddSource .l .subl ∧ FaultsOddSource .w .and ∧ FaultsOddSource .w .or ∧
   FaultsOddSource .w .xor ∧ FaultsOddDst .w .clr ∧ FaultsOddDst .w .com ∧ FaultsOddDst .w .neg ∧
   FaultsOddDst .w .test ∧ FaultsOddDst .l .testl ∧ FaultsOddDst .w .tset ∧
   (∀ n, FaultsOddDst .w (.inc · n) ∧ FaultsOddDst .w (.dec · n) ∧ FaultsOddDst .w (.bit · n) ∧
     FaultsOddDst .w (.resBit · n) ∧ FaultsOddDst .w (.setBit · n)) ∧
   (∀ v, FaultsOddDst .w (.ldImm · v)) ∧
   (∀ sp, FaultsOddSource .w (fun _ src => .pushw sp src) ∧ FaultsOddDst .l (.pushl sp ·))) ∧
  ((∀ (d : Reg) (m : Mem) (n : BitVec 4) (s : State), s.memReady .w m = false →
     let a := (memEA m s).2
     (pairOk d = true → exec (.mult d (.mem m)) s = .fault (.misaligned a) ∧
       exec (.div d (.mem m)) s = .fault (.misaligned a)) ∧
     (quadOk d = true → exec (.multl d (.mem m)) s = .fault (.misaligned a) ∧
       exec (.divl d (.mem m)) s = .fault (.misaligned a)) ∧
     (∀ v, exec (.cpImm m v) s = .fault (.misaligned a)) ∧
     exec (.ex d (.mem m)) s = .fault (.misaligned a) ∧ exec (.ldmLoad d m n) s = .fault (.misaligned a) ∧
     exec (.ldmStore m d n) s = .fault (.misaligned a) ∧ FaultsAt (.ldps m) s a ∧
     (s.extendedRuns = true → ∀ b x, exec (.ldFromEpuMem m b x n) s = .fault (.misaligned a) ∧
       exec (.ldToEpuMem m b x n) s = .fault (.misaligned a))) ∧
   (∀ (d : Reg) (m : LdMem) (s : State), s.reaches .w (ldEA m s).2 = false →
     let a := (ldEA m s).2
     exec (.ld d (.mem m)) s = .fault (.misaligned a) ∧ exec (.ldl d (.mem m)) s = .fault (.misaligned a) ∧
     exec (.ldStore m d) s = .fault (.misaligned a) ∧
     (pairOk d = true → exec (.ldlStore m d) s = .fault (.misaligned a))) ∧
   (∀ (d : Reg) (disp : Word) (s : State), s.reaches .w (s.pc + disp) = false →
     let a := s.pc + disp
     exec (.ldr d disp) s = .fault (.misaligned a) ∧ exec (.ldrl d disp) s = .fault (.misaligned a) ∧
     exec (.ldrStore disp d) s = .fault (.misaligned a) ∧
     (pairOk d = true → exec (.ldrlStore disp d) s = .fault (.misaligned a)))) ∧
  ((∀ (sp : Reg) (s : State), s.reaches .w (s.word sp) = false →
     (∀ src, s.srcReady .w src = true → exec (.pushw sp src) s = .fault (.misaligned (s.word sp - 2))) ∧
     (∀ src, s.dstReady .l src = true → exec (.pushl sp src) s = .fault (.misaligned (s.word sp - 4))) ∧
     (∀ d, popSeparate .w sp d = true → exec (.pop d sp) s = .fault (.misaligned (s.word sp))) ∧
     (∀ d, popSeparate .l sp d = true → exec (.popl d sp) s = .fault (.misaligned (s.word sp)))) ∧
   (∀ (sp : Reg) (m : Mem) (s : State), s.reaches .w (s.word sp) = true → s.memReady .w m = false → memAvoids sp m = true →
     exec (.pop (.mem m) sp) s = .fault (.misaligned (memEA m s).2) ∧
     exec (.popl (.mem m) sp) s = .fault (.misaligned (memEA m s).2)) ∧
   (∀ (s : State), s.reaches .w (s.word 15) = false →
     (∀ cc, condHolds cc s.fcw = true → exec (.ret cc) s = .fault (.misaligned (s.word 15))) ∧
     (∀ e, exec (.calr e) s = .fault (.misaligned (s.word 15 - 2))) ∧
     (∀ m, memAvoids 15 m = true → exec (.call m) s = .fault (.misaligned (s.word 15 - 2))) ∧
     FaultsAt .iret s (s.word 15 + 2))) ∧
  (∀ (d p r : Reg) (cc : Cond) (s : State), separate d p r = true →
    (s.reaches .w (s.word p) = false →
      exec (.ldi d p r) s = .fault (.misaligned (s.word p)) ∧ exec (.ldd d p r) s = .fault (.misaligned (s.word p)) ∧
      exec (.cpi d p r cc) s = .fault (.misaligned (s.word p)) ∧
      exec (.cpd d p r cc) s = .fault (.misaligned (s.word p)) ∧
      exec (.cpir d p r cc) s = .fault (.misaligned (s.word p)) ∧
      exec (.cpdr d p r cc) s = .fault (.misaligned (s.word p)) ∧
      exec (.cpsi d p r cc) s = .fault (.misaligned (s.word p)) ∧
      exec (.cpsd d p r cc) s = .fault (.misaligned (s.word p)) ∧
      exec (.cpsir d p r cc) s = .fault (.misaligned (s.word p)) ∧
      exec (.cpsdr d p r cc) s = .fault (.misaligned (s.word p)) ∧
      (blockLoadCondition cc = true →
        exec (.ldir d p r cc) s = .fault (.misaligned (s.word p)) ∧
        exec (.lddr d p r cc) s = .fault (.misaligned (s.word p))) ∧
      FaultsAt (.outi d p r) s (s.word p) ∧ FaultsAt (.outd d p r) s (s.word p) ∧
      FaultsAt (.souti d p r) s (s.word p) ∧ FaultsAt (.soutd d p r) s (s.word p) ∧
      (blockIoCondition cc = true →
        FaultsAt (.otir d p r cc) s (s.word p) ∧ FaultsAt (.otdr d p r cc) s (s.word p) ∧
        FaultsAt (.sotir d p r cc) s (s.word p) ∧ FaultsAt (.sotdr d p r cc) s (s.word p))) ∧
    (s.reaches .w (s.word d) = false →
      (s.reaches .w (s.word p) = true →
        exec (.ldi d p r) s = .fault (.misaligned (s.word d)) ∧
        exec (.ldd d p r) s = .fault (.misaligned (s.word d)) ∧
        exec (.cpsi d p r cc) s = .fault (.misaligned (s.word d)) ∧
        exec (.cpsd d p r cc) s = .fault (.misaligned (s.word d)) ∧
        exec (.cpsir d p r cc) s = .fault (.misaligned (s.word d)) ∧
        exec (.cpsdr d p r cc) s = .fault (.misaligned (s.word d)) ∧
        (blockLoadCondition cc = true →
          exec (.ldir d p r cc) s = .fault (.misaligned (s.word d)) ∧
          exec (.lddr d p r cc) s = .fault (.misaligned (s.word d)))) ∧
      FaultsAt (.ini d p r) s (s.word d) ∧ FaultsAt (.ind d p r) s (s.word d) ∧ FaultsAt (.sini d p r) s (s.word d) ∧
      FaultsAt (.sind d p r) s (s.word d) ∧
      (blockIoCondition cc = true →
        FaultsAt (.inir d p r cc) s (s.word d) ∧ FaultsAt (.indr d p r cc) s (s.word d) ∧
        FaultsAt (.sinir d p r cc) s (s.word d) ∧ FaultsAt (.sindr d p r cc) s (s.word d))))
end

