-- ==== Sys2Proof/Laws/Memory.lean ====
section
/-! SUPPORT. Laws/Memory.lean: reads after writes of the byte store, and its canonical form, which every memory
operation of Machine/Ops.lean keeps. -/

namespace Sys2Proof.Machine

/-! ### Reads after writes -/

theorem Memory.read_of_absent (m : Memory) (a : Nat) (h : ∀ x ∈ m, x.1 ≠ a) : Memory.read m a = Config.blankByte := by
  induction m with
  | nil => rfl
  | cons x m ih => simp_all [Memory.read]

theorem Memory.read_erase_self (m : Memory) (a : Nat) : Memory.read (Memory.erase m a) a = Config.blankByte :=
  Memory.read_of_absent _ _ fun x hx => by simpa [Memory.erase] using (List.mem_filter.1 hx).2

theorem Memory.read_erase_ne (m : Memory) {a b : Nat} (h : b ≠ a) :
    Memory.read (Memory.erase m a) b = Memory.read m b := by
  induction m with
  | nil => rfl
  | cons x m ih =>
    simp only [Memory.erase, List.filter_cons] at ih ⊢
    by_cases hx : x.1 = a
    · have : x.1 ≠ b := fun e => h (e.symm.trans hx)
      simp_all [Memory.read]
    · simp_all [Memory.read]

theorem Memory.read_insert_ne (m : Memory) {a b : Nat} (v : Byte) (h : b ≠ a) :
    Memory.read (Memory.insert m a v) b = Memory.read m b := by
  induction m with
  | nil => simp [Memory.insert, Memory.read, h.symm]
  | cons x m ih =>
    simp only [Memory.insert]
    split
    · simp [Memory.read, h.symm]
    · simp [Memory.read, ih]

theorem Memory.read_insert_self (m : Memory) (a : Nat) (v : Byte) (h : ∀ x ∈ m, x.1 ≠ a) :
    Memory.read (Memory.insert m a v) a = v := by
  induction m with
  | nil => simp [Memory.insert, Memory.read]
  | cons x m ih =>
    simp only [Memory.insert]
    split
    · simp [Memory.read]
    · simp_all [Memory.read]

theorem Memory.erase_absent (m : Memory) (a : Nat) : ∀ x ∈ Memory.erase m a, x.1 ≠ a := fun x hx => by
  simpa [Memory.erase] using (List.mem_filter.1 hx).2

/-- A byte written is the byte read. -/
@[simp] theorem Memory.read_write_self (m : Memory) (a : Nat) (v : Byte) : Memory.read (Memory.write m a v) a = v := by
  unfold Memory.write
  split
  · simp_all [Memory.read_erase_self]
  · exact Memory.read_insert_self _ _ _ (Memory.erase_absent m a)

/-- A write leaves every other key alone. -/
theorem Memory.read_write_ne (m : Memory) {a b : Nat} (v : Byte) (h : b ≠ a) :
    Memory.read (Memory.write m a v) b = Memory.read m b := by
  unfold Memory.write
  split
  · exact Memory.read_erase_ne m h
  · rw [Memory.read_insert_ne _ _ h, Memory.read_erase_ne m h]

/-- What a write leaves under every key. -/
theorem Memory.read_write (m : Memory) (a b : Nat) (v : Byte) :
    Memory.read (Memory.write m a v) b = if b = a then v else Memory.read m b := by
  split
  · simp_all
  · exact Memory.read_write_ne m v ‹_›

/-! ### The canonical form -/

/-- The canonical form as a property of the list. -/
theorem Memory.wf_iff (m : Memory) :
    Memory.wf m = true ↔ m.Pairwise (fun x y => x.1 < y.1) ∧ ∀ x ∈ m, x.2 ≠ Config.blankByte := by
  rw [← List.isChain_iff_pairwise (R := fun x y : Host.Cell => x.1 < y.1)]
  induction m with
  | nil => simp [Memory.wf]
  | cons x m ih =>
    cases m with
    | nil => simp [Memory.wf]
    | cons y m =>
      simp only [Memory.wf, Bool.and_eq_true, decide_eq_true_eq, bne_iff_ne, ih, List.isChain_cons_cons,
        List.forall_mem_cons]
      tauto

theorem Memory.wf_erase (m : Memory) (a : Nat) (h : Memory.wf m = true) : Memory.wf (Memory.erase m a) = true := by
  rw [Memory.wf_iff] at *
  exact ⟨h.1.filter _, fun x hx => h.2 x (List.mem_filter.1 hx).1⟩

theorem Memory.mem_insert (m : Memory) (a : Nat) (v : Byte) (x : Host.Cell) :
    x ∈ Memory.insert m a v ↔ x = (a, v) ∨ x ∈ m := by
  induction m with
  | nil => simp [Memory.insert]
  | cons y m ih =>
    simp only [Memory.insert]
    split
    · simp
    · simp only [List.mem_cons, ih]; tauto

theorem Memory.wf_insert (m : Memory) (a : Nat) (v : Byte) (h : Memory.wf m = true) (absent : ∀ x ∈ m, x.1 ≠ a)
    (value : v ≠ Config.blankByte) : Memory.wf (Memory.insert m a v) = true := by
  rw [Memory.wf_iff] at *
  refine ⟨?_, fun x hx => ?_⟩
  · obtain ⟨h, -⟩ := h
    induction m with
    | nil => simp [Memory.insert]
    | cons y m ih =>
      simp only [Memory.insert]
      rw [List.pairwise_cons] at h
      split
      · refine List.pairwise_cons.2 ⟨fun x hx => ?_, List.pairwise_cons.2 h⟩
        rcases List.mem_cons.1 hx with rfl | hx
        · assumption
        · exact lt_trans ‹_› (h.1 x hx)
      · refine List.pairwise_cons.2 ⟨fun x hx => ?_, ih (fun x hx => absent x (by simp [hx])) h.2⟩
        rcases (Memory.mem_insert m a v x).1 hx with rfl | hx
        · have := absent y (by simp)
          show y.1 < a
          omega
        · exact h.1 x hx
  · rcases (Memory.mem_insert m a v x).1 hx with rfl | hx
    · exact value
    · exact h.2 x hx

/-- A write keeps the canonical form. -/
theorem Memory.wf_write (m : Memory) (a : Nat) (v : Byte) (h : Memory.wf m = true) :
    Memory.wf (Memory.write m a v) = true := by
  unfold Memory.write
  split
  · exact Memory.wf_erase m a h
  · exact Memory.wf_insert _ a v (Memory.wf_erase m a h) (Memory.erase_absent m a) ‹_›

theorem State.poke_wf (s : State) (sp : Space) (a : Word) (v : Byte) (h : Memory.wf s.mem = true) :
    Memory.wf (s.poke sp a v).mem = true := Memory.wf_write _ _ _ h

theorem State.pokeWord_wf (s : State) (sp : Space) (a v : Word) (h : Memory.wf s.mem = true) :
    Memory.wf (s.pokeWord sp a v).mem = true := State.poke_wf _ _ _ _ (State.poke_wf _ _ _ _ h)

/-- `State.reset`'s memory is in canonical form. -/
theorem State.reset_mem_wf : Memory.wf State.reset.mem = true := rfl

/-- Equal reads make equal memories, in canonical form. -/
theorem Memory.eq_of_read (m n : Memory) (hm : Memory.wf m = true) (hn : Memory.wf n = true)
    (h : ∀ a, Memory.read m a = Memory.read n a) : m = n := by
  rw [Memory.wf_iff] at hm hn
  have read_mem (l : Memory) (hl : l.Pairwise (fun x y => x.1 < y.1)) (x : Host.Cell) (hx : x ∈ l) :
      Memory.read l x.1 = x.2 := by
    induction l with
    | nil => simp at hx
    | cons y l ih =>
      rw [List.pairwise_cons] at hl
      rcases List.mem_cons.1 hx with rfl | hx
      · simp [Memory.read]
      · have := hl.1 x hx
        rw [← ih hl.2 hx]
        simp [Memory.read, this.ne]
  have mem_of_read (l : Memory) (a : Nat) (hl : Memory.read l a ≠ Config.blankByte) : (a, Memory.read l a) ∈ l := by
    induction l with
    | nil => simp [Memory.read] at hl
    | cons y l ih =>
      simp only [Memory.read] at hl ⊢
      split
      · rename_i e; subst e; simp
      · simp_all
  have sub (l k : Memory) (hl : l.Pairwise (fun x y => x.1 < y.1)) (bl : ∀ x ∈ l, x.2 ≠ Config.blankByte)
      (e : ∀ a, Memory.read l a = Memory.read k a) : l ⊆ k := fun x hx => by
    have r := read_mem l hl x hx
    have := mem_of_read k x.1 (by rw [← e, r]; exact bl x hx)
    rwa [← e, r] at this
  refine List.Perm.eq_of_pairwise (le := fun x y : Host.Cell => x.1 < y.1) (fun a b _ _ h₁ h₂ => absurd h₁ (by omega)) hm.1 hn.1
    ((List.perm_ext_iff_of_nodup (hm.1.imp fun h e => ?_) (hn.1.imp fun h e => ?_)).2 fun x =>
      ⟨fun hx => sub m n hm.1 hm.2 h hx, fun hx => sub n m hn.1 hn.2 (fun a => (h a).symm) hx⟩)
  · simp [e] at h
  · simp [e] at h

end Sys2Proof.Machine
end

