-- ==== Sys2Proof/Laws/State.lean ====
section
/-! SUPPORT. Laws/State.lean: one lemma per field per plain update of State, so that no proof unfolds a record
update. -/

namespace Sys2Proof.Machine

/-! ### `State.setFcw` -/

@[simp] theorem State.setFcw_cfg (s : State) (k : Fcw) : (s.setFcw k).cfg = s.cfg := rfl
@[simp] theorem State.setFcw_regs (s : State) (k : Fcw) : (s.setFcw k).regs = s.regs := rfl
@[simp] theorem State.setFcw_nsp (s : State) (k : Fcw) : (s.setFcw k).nsp = s.nsp := rfl
@[simp] theorem State.setFcw_pc (s : State) (k : Fcw) : (s.setFcw k).pc = s.pc := rfl
@[simp] theorem State.setFcw_fcw (s : State) (k : Fcw) : (s.setFcw k).fcw = k := rfl
@[simp] theorem State.setFcw_psap (s : State) (k : Fcw) : (s.setFcw k).psap = s.psap := rfl
@[simp] theorem State.setFcw_refresh (s : State) (k : Fcw) : (s.setFcw k).refresh = s.refresh := rfl
@[simp] theorem State.setFcw_mem (s : State) (k : Fcw) : (s.setFcw k).mem = s.mem := rfl
@[simp] theorem State.setFcw_mob (s : State) (k : Fcw) : (s.setFcw k).mob = s.mob := rfl
@[simp] theorem State.setFcw_halted (s : State) (k : Fcw) : (s.setFcw k).halted = s.halted := rfl
@[simp] theorem State.setFcw_nmiPending (s : State) (k : Fcw) : (s.setFcw k).nmiPending = s.nmiPending := rfl
@[simp] theorem State.setFcw_resetting (s : State) (k : Fcw) : (s.setFcw k).resetting = s.resetting := rfl
@[simp] theorem State.setFcw_ir (s : State) (k : Fcw) : (s.setFcw k).ir = s.ir := rfl
@[simp] theorem State.setFcw_ir2 (s : State) (k : Fcw) : (s.setFcw k).ir2 = s.ir2 := rfl
@[simp] theorem State.setFcw_repeating (s : State) (k : Fcw) : (s.setFcw k).repeating = s.repeating := rfl
@[simp] theorem State.setFcw_pins (s : State) (k : Fcw) : (s.setFcw k).pins = s.pins := rfl
@[simp] theorem State.setFcw_mib (s : State) (k : Fcw) : (s.setFcw k).mib = s.mib := rfl
@[simp] theorem State.setFcw_portIn (s : State) (k : Fcw) : (s.setFcw k).portIn = s.portIn := rfl
@[simp] theorem State.setFcw_epuIn (s : State) (k : Fcw) : (s.setFcw k).epuIn = s.epuIn := rfl
@[simp] theorem State.setFcw_bus (s : State) (k : Fcw) : (s.setFcw k).bus = s.bus := rfl
@[simp] theorem State.setFcw_trace (s : State) (k : Fcw) : (s.setFcw k).trace = s.trace := rfl
@[simp] theorem State.setFcw_freeCount (s : State) (k : Fcw) : (s.setFcw k).freeCount = s.freeCount := rfl

/-! ### `State.setPc` -/

@[simp] theorem State.setPc_cfg (s : State) (a : Word) : (s.setPc a).cfg = s.cfg := rfl
@[simp] theorem State.setPc_regs (s : State) (a : Word) : (s.setPc a).regs = s.regs := rfl
@[simp] theorem State.setPc_nsp (s : State) (a : Word) : (s.setPc a).nsp = s.nsp := rfl
@[simp] theorem State.setPc_pc (s : State) (a : Word) : (s.setPc a).pc = a := rfl
@[simp] theorem State.setPc_fcw (s : State) (a : Word) : (s.setPc a).fcw = s.fcw := rfl
@[simp] theorem State.setPc_psap (s : State) (a : Word) : (s.setPc a).psap = s.psap := rfl
@[simp] theorem State.setPc_refresh (s : State) (a : Word) : (s.setPc a).refresh = s.refresh := rfl
@[simp] theorem State.setPc_mem (s : State) (a : Word) : (s.setPc a).mem = s.mem := rfl
@[simp] theorem State.setPc_mob (s : State) (a : Word) : (s.setPc a).mob = s.mob := rfl
@[simp] theorem State.setPc_halted (s : State) (a : Word) : (s.setPc a).halted = s.halted := rfl
@[simp] theorem State.setPc_nmiPending (s : State) (a : Word) : (s.setPc a).nmiPending = s.nmiPending := rfl
@[simp] theorem State.setPc_resetting (s : State) (a : Word) : (s.setPc a).resetting = s.resetting := rfl
@[simp] theorem State.setPc_ir (s : State) (a : Word) : (s.setPc a).ir = s.ir := rfl
@[simp] theorem State.setPc_ir2 (s : State) (a : Word) : (s.setPc a).ir2 = s.ir2 := rfl
@[simp] theorem State.setPc_repeating (s : State) (a : Word) : (s.setPc a).repeating = s.repeating := rfl
@[simp] theorem State.setPc_pins (s : State) (a : Word) : (s.setPc a).pins = s.pins := rfl
@[simp] theorem State.setPc_mib (s : State) (a : Word) : (s.setPc a).mib = s.mib := rfl
@[simp] theorem State.setPc_portIn (s : State) (a : Word) : (s.setPc a).portIn = s.portIn := rfl
@[simp] theorem State.setPc_epuIn (s : State) (a : Word) : (s.setPc a).epuIn = s.epuIn := rfl
@[simp] theorem State.setPc_bus (s : State) (a : Word) : (s.setPc a).bus = s.bus := rfl
@[simp] theorem State.setPc_trace (s : State) (a : Word) : (s.setPc a).trace = s.trace := rfl
@[simp] theorem State.setPc_freeCount (s : State) (a : Word) : (s.setPc a).freeCount = s.freeCount := rfl

/-! ### `State.mark` -/

@[simp] theorem State.mark_cfg (s : State) (p : Point) : (s.mark p).cfg = s.cfg := rfl
@[simp] theorem State.mark_regs (s : State) (p : Point) : (s.mark p).regs = s.regs := rfl
@[simp] theorem State.mark_nsp (s : State) (p : Point) : (s.mark p).nsp = s.nsp := rfl
@[simp] theorem State.mark_pc (s : State) (p : Point) : (s.mark p).pc = s.pc := rfl
@[simp] theorem State.mark_fcw (s : State) (p : Point) : (s.mark p).fcw = s.fcw := rfl
@[simp] theorem State.mark_psap (s : State) (p : Point) : (s.mark p).psap = s.psap := rfl
@[simp] theorem State.mark_refresh (s : State) (p : Point) : (s.mark p).refresh = s.refresh := rfl
@[simp] theorem State.mark_mem (s : State) (p : Point) : (s.mark p).mem = s.mem := rfl
@[simp] theorem State.mark_mob (s : State) (p : Point) : (s.mark p).mob = s.mob := rfl
@[simp] theorem State.mark_halted (s : State) (p : Point) : (s.mark p).halted = s.halted := rfl
@[simp] theorem State.mark_nmiPending (s : State) (p : Point) : (s.mark p).nmiPending = s.nmiPending := rfl
@[simp] theorem State.mark_resetting (s : State) (p : Point) : (s.mark p).resetting = s.resetting := rfl
@[simp] theorem State.mark_ir (s : State) (p : Point) : (s.mark p).ir = s.ir := rfl
@[simp] theorem State.mark_ir2 (s : State) (p : Point) : (s.mark p).ir2 = s.ir2 := rfl
@[simp] theorem State.mark_repeating (s : State) (p : Point) : (s.mark p).repeating = s.repeating := rfl
@[simp] theorem State.mark_pins (s : State) (p : Point) : (s.mark p).pins = s.pins := rfl
@[simp] theorem State.mark_mib (s : State) (p : Point) : (s.mark p).mib = s.mib := rfl
@[simp] theorem State.mark_portIn (s : State) (p : Point) : (s.mark p).portIn = s.portIn := rfl
@[simp] theorem State.mark_epuIn (s : State) (p : Point) : (s.mark p).epuIn = s.epuIn := rfl
@[simp] theorem State.mark_bus (s : State) (p : Point) : (s.mark p).bus = s.bus := rfl
@[simp] theorem State.mark_trace (s : State) (p : Point) : (s.mark p).trace = s.trace.map fun ps => p :: ps := rfl
@[simp] theorem State.mark_freeCount (s : State) (p : Point) : (s.mark p).freeCount = s.freeCount := rfl

/-! ### `State.access` -/

@[simp] theorem State.access_cfg (s : State) (o : Option Word) (e : BusEvent) : (s.access o e).cfg = s.cfg := rfl
@[simp] theorem State.access_regs (s : State) (o : Option Word) (e : BusEvent) : (s.access o e).regs = s.regs := rfl
@[simp] theorem State.access_nsp (s : State) (o : Option Word) (e : BusEvent) : (s.access o e).nsp = s.nsp := rfl
@[simp] theorem State.access_pc (s : State) (o : Option Word) (e : BusEvent) : (s.access o e).pc = s.pc := rfl
@[simp] theorem State.access_fcw (s : State) (o : Option Word) (e : BusEvent) : (s.access o e).fcw = s.fcw := rfl
@[simp] theorem State.access_psap (s : State) (o : Option Word) (e : BusEvent) : (s.access o e).psap = s.psap := rfl
@[simp] theorem State.access_refresh (s : State) (o : Option Word) (e : BusEvent) : (s.access o e).refresh = s.refresh := rfl
@[simp] theorem State.access_mem (s : State) (o : Option Word) (e : BusEvent) : (s.access o e).mem = s.mem := rfl
@[simp] theorem State.access_mob (s : State) (o : Option Word) (e : BusEvent) : (s.access o e).mob = s.mob := rfl
@[simp] theorem State.access_halted (s : State) (o : Option Word) (e : BusEvent) : (s.access o e).halted = s.halted := rfl
@[simp] theorem State.access_nmiPending (s : State) (o : Option Word) (e : BusEvent) : (s.access o e).nmiPending = s.nmiPending := rfl
@[simp] theorem State.access_resetting (s : State) (o : Option Word) (e : BusEvent) : (s.access o e).resetting = s.resetting := rfl
@[simp] theorem State.access_ir (s : State) (o : Option Word) (e : BusEvent) : (s.access o e).ir = s.ir := rfl
@[simp] theorem State.access_ir2 (s : State) (o : Option Word) (e : BusEvent) : (s.access o e).ir2 = s.ir2 := rfl
@[simp] theorem State.access_repeating (s : State) (o : Option Word) (e : BusEvent) : (s.access o e).repeating = s.repeating := rfl
@[simp] theorem State.access_pins (s : State) (o : Option Word) (e : BusEvent) : (s.access o e).pins = s.pins := rfl
@[simp] theorem State.access_mib (s : State) (o : Option Word) (e : BusEvent) : (s.access o e).mib = s.mib := rfl
@[simp] theorem State.access_portIn (s : State) (o : Option Word) (e : BusEvent) : (s.access o e).portIn = s.portIn := rfl
@[simp] theorem State.access_epuIn (s : State) (o : Option Word) (e : BusEvent) : (s.access o e).epuIn = s.epuIn := rfl
@[simp] theorem State.access_bus (s : State) (o : Option Word) (e : BusEvent) : (s.access o e).bus = e :: s.bus := rfl
@[simp] theorem State.access_freeCount (s : State) (o : Option Word) (e : BusEvent) : (s.access o e).freeCount = s.freeCount := rfl

/-! ### `State.note` -/

@[simp] theorem State.note_cfg (s : State) (e : BusEvent) : (s.note e).cfg = s.cfg := rfl
@[simp] theorem State.note_regs (s : State) (e : BusEvent) : (s.note e).regs = s.regs := rfl
@[simp] theorem State.note_nsp (s : State) (e : BusEvent) : (s.note e).nsp = s.nsp := rfl
@[simp] theorem State.note_pc (s : State) (e : BusEvent) : (s.note e).pc = s.pc := rfl
@[simp] theorem State.note_fcw (s : State) (e : BusEvent) : (s.note e).fcw = s.fcw := rfl
@[simp] theorem State.note_psap (s : State) (e : BusEvent) : (s.note e).psap = s.psap := rfl
@[simp] theorem State.note_refresh (s : State) (e : BusEvent) : (s.note e).refresh = s.refresh := rfl
@[simp] theorem State.note_mem (s : State) (e : BusEvent) : (s.note e).mem = s.mem := rfl
@[simp] theorem State.note_mob (s : State) (e : BusEvent) : (s.note e).mob = s.mob := rfl
@[simp] theorem State.note_halted (s : State) (e : BusEvent) : (s.note e).halted = s.halted := rfl
@[simp] theorem State.note_nmiPending (s : State) (e : BusEvent) : (s.note e).nmiPending = s.nmiPending := rfl
@[simp] theorem State.note_resetting (s : State) (e : BusEvent) : (s.note e).resetting = s.resetting := rfl
@[simp] theorem State.note_ir (s : State) (e : BusEvent) : (s.note e).ir = s.ir := rfl
@[simp] theorem State.note_ir2 (s : State) (e : BusEvent) : (s.note e).ir2 = s.ir2 := rfl
@[simp] theorem State.note_repeating (s : State) (e : BusEvent) : (s.note e).repeating = s.repeating := rfl
@[simp] theorem State.note_pins (s : State) (e : BusEvent) : (s.note e).pins = s.pins := rfl
@[simp] theorem State.note_mib (s : State) (e : BusEvent) : (s.note e).mib = s.mib := rfl
@[simp] theorem State.note_portIn (s : State) (e : BusEvent) : (s.note e).portIn = s.portIn := rfl
@[simp] theorem State.note_epuIn (s : State) (e : BusEvent) : (s.note e).epuIn = s.epuIn := rfl
@[simp] theorem State.note_bus (s : State) (e : BusEvent) : (s.note e).bus = e :: s.bus := rfl
@[simp] theorem State.note_freeCount (s : State) (e : BusEvent) : (s.note e).freeCount = s.freeCount := rfl

/-! ### `State.bumpFree` -/

@[simp] theorem State.bumpFree_cfg (s : State) : (s.bumpFree).cfg = s.cfg := rfl
@[simp] theorem State.bumpFree_regs (s : State) : (s.bumpFree).regs = s.regs := rfl
@[simp] theorem State.bumpFree_nsp (s : State) : (s.bumpFree).nsp = s.nsp := rfl
@[simp] theorem State.bumpFree_pc (s : State) : (s.bumpFree).pc = s.pc := rfl
@[simp] theorem State.bumpFree_fcw (s : State) : (s.bumpFree).fcw = s.fcw := rfl
@[simp] theorem State.bumpFree_psap (s : State) : (s.bumpFree).psap = s.psap := rfl
@[simp] theorem State.bumpFree_refresh (s : State) : (s.bumpFree).refresh = s.refresh := rfl
@[simp] theorem State.bumpFree_mem (s : State) : (s.bumpFree).mem = s.mem := rfl
@[simp] theorem State.bumpFree_mob (s : State) : (s.bumpFree).mob = s.mob := rfl
@[simp] theorem State.bumpFree_halted (s : State) : (s.bumpFree).halted = s.halted := rfl
@[simp] theorem State.bumpFree_nmiPending (s : State) : (s.bumpFree).nmiPending = s.nmiPending := rfl
@[simp] theorem State.bumpFree_resetting (s : State) : (s.bumpFree).resetting = s.resetting := rfl
@[simp] theorem State.bumpFree_ir (s : State) : (s.bumpFree).ir = s.ir := rfl
@[simp] theorem State.bumpFree_ir2 (s : State) : (s.bumpFree).ir2 = s.ir2 := rfl
@[simp] theorem State.bumpFree_repeating (s : State) : (s.bumpFree).repeating = s.repeating := rfl
@[simp] theorem State.bumpFree_pins (s : State) : (s.bumpFree).pins = s.pins := rfl
@[simp] theorem State.bumpFree_mib (s : State) : (s.bumpFree).mib = s.mib := rfl
@[simp] theorem State.bumpFree_portIn (s : State) : (s.bumpFree).portIn = s.portIn := rfl
@[simp] theorem State.bumpFree_epuIn (s : State) : (s.bumpFree).epuIn = s.epuIn := rfl
@[simp] theorem State.bumpFree_bus (s : State) : (s.bumpFree).bus = s.bus := rfl
@[simp] theorem State.bumpFree_trace (s : State) : (s.bumpFree).trace = s.trace := rfl
@[simp] theorem State.bumpFree_freeCount (s : State) : (s.bumpFree).freeCount = s.freeCount + 1 := rfl

/-! ### `State.poke` -/

@[simp] theorem State.poke_cfg (s : State) (sp : Space) (a : Word) (v : Byte) : (s.poke sp a v).cfg = s.cfg := rfl
@[simp] theorem State.poke_regs (s : State) (sp : Space) (a : Word) (v : Byte) : (s.poke sp a v).regs = s.regs := rfl
@[simp] theorem State.poke_nsp (s : State) (sp : Space) (a : Word) (v : Byte) : (s.poke sp a v).nsp = s.nsp := rfl
@[simp] theorem State.poke_pc (s : State) (sp : Space) (a : Word) (v : Byte) : (s.poke sp a v).pc = s.pc := rfl
@[simp] theorem State.poke_fcw (s : State) (sp : Space) (a : Word) (v : Byte) : (s.poke sp a v).fcw = s.fcw := rfl
@[simp] theorem State.poke_psap (s : State) (sp : Space) (a : Word) (v : Byte) : (s.poke sp a v).psap = s.psap := rfl
@[simp] theorem State.poke_refresh (s : State) (sp : Space) (a : Word) (v : Byte) : (s.poke sp a v).refresh = s.refresh := rfl
@[simp] theorem State.poke_mem (s : State) (sp : Space) (a : Word) (v : Byte) : (s.poke sp a v).mem = Memory.write s.mem (s.key sp a) v := rfl
@[simp] theorem State.poke_mob (s : State) (sp : Space) (a : Word) (v : Byte) : (s.poke sp a v).mob = s.mob := rfl
@[simp] theorem State.poke_halted (s : State) (sp : Space) (a : Word) (v : Byte) : (s.poke sp a v).halted = s.halted := rfl
@[simp] theorem State.poke_nmiPending (s : State) (sp : Space) (a : Word) (v : Byte) : (s.poke sp a v).nmiPending = s.nmiPending := rfl
@[simp] theorem State.poke_resetting (s : State) (sp : Space) (a : Word) (v : Byte) : (s.poke sp a v).resetting = s.resetting := rfl
@[simp] theorem State.poke_ir (s : State) (sp : Space) (a : Word) (v : Byte) : (s.poke sp a v).ir = s.ir := rfl
@[simp] theorem State.poke_ir2 (s : State) (sp : Space) (a : Word) (v : Byte) : (s.poke sp a v).ir2 = s.ir2 := rfl
@[simp] theorem State.poke_repeating (s : State) (sp : Space) (a : Word) (v : Byte) : (s.poke sp a v).repeating = s.repeating := rfl
@[simp] theorem State.poke_pins (s : State) (sp : Space) (a : Word) (v : Byte) : (s.poke sp a v).pins = s.pins := rfl
@[simp] theorem State.poke_mib (s : State) (sp : Space) (a : Word) (v : Byte) : (s.poke sp a v).mib = s.mib := rfl
@[simp] theorem State.poke_portIn (s : State) (sp : Space) (a : Word) (v : Byte) : (s.poke sp a v).portIn = s.portIn := rfl
@[simp] theorem State.poke_epuIn (s : State) (sp : Space) (a : Word) (v : Byte) : (s.poke sp a v).epuIn = s.epuIn := rfl
@[simp] theorem State.poke_bus (s : State) (sp : Space) (a : Word) (v : Byte) : (s.poke sp a v).bus = s.bus := rfl
@[simp] theorem State.poke_trace (s : State) (sp : Space) (a : Word) (v : Byte) : (s.poke sp a v).trace = s.trace := rfl
@[simp] theorem State.poke_freeCount (s : State) (sp : Space) (a : Word) (v : Byte) : (s.poke sp a v).freeCount = s.freeCount := rfl

/-! ### `State.setWord` -/

@[simp] theorem State.setWord_cfg (s : State) (c : Reg) (v : Word) : (s.setWord c v).cfg = s.cfg := by
  unfold State.setWord; split <;> rfl
@[simp] theorem State.setWord_pc (s : State) (c : Reg) (v : Word) : (s.setWord c v).pc = s.pc := by
  unfold State.setWord; split <;> rfl
@[simp] theorem State.setWord_fcw (s : State) (c : Reg) (v : Word) : (s.setWord c v).fcw = s.fcw := by
  unfold State.setWord; split <;> rfl
@[simp] theorem State.setWord_psap (s : State) (c : Reg) (v : Word) : (s.setWord c v).psap = s.psap := by
  unfold State.setWord; split <;> rfl
@[simp] theorem State.setWord_refresh (s : State) (c : Reg) (v : Word) : (s.setWord c v).refresh = s.refresh := by
  unfold State.setWord; split <;> rfl
@[simp] theorem State.setWord_mem (s : State) (c : Reg) (v : Word) : (s.setWord c v).mem = s.mem := by
  unfold State.setWord; split <;> rfl
@[simp] theorem State.setWord_mob (s : State) (c : Reg) (v : Word) : (s.setWord c v).mob = s.mob := by
  unfold State.setWord; split <;> rfl
@[simp] theorem State.setWord_halted (s : State) (c : Reg) (v : Word) : (s.setWord c v).halted = s.halted := by
  unfold State.setWord; split <;> rfl
@[simp] theorem State.setWord_nmiPending (s : State) (c : Reg) (v : Word) : (s.setWord c v).nmiPending = s.nmiPending := by
  unfold State.setWord; split <;> rfl
@[simp] theorem State.setWord_resetting (s : State) (c : Reg) (v : Word) : (s.setWord c v).resetting = s.resetting := by
  unfold State.setWord; split <;> rfl
@[simp] theorem State.setWord_ir (s : State) (c : Reg) (v : Word) : (s.setWord c v).ir = s.ir := by
  unfold State.setWord; split <;> rfl
@[simp] theorem State.setWord_ir2 (s : State) (c : Reg) (v : Word) : (s.setWord c v).ir2 = s.ir2 := by
  unfold State.setWord; split <;> rfl
@[simp] theorem State.setWord_repeating (s : State) (c : Reg) (v : Word) : (s.setWord c v).repeating = s.repeating := by
  unfold State.setWord; split <;> rfl
@[simp] theorem State.setWord_pins (s : State) (c : Reg) (v : Word) : (s.setWord c v).pins = s.pins := by
  unfold State.setWord; split <;> rfl
@[simp] theorem State.setWord_mib (s : State) (c : Reg) (v : Word) : (s.setWord c v).mib = s.mib := by
  unfold State.setWord; split <;> rfl
@[simp] theorem State.setWord_portIn (s : State) (c : Reg) (v : Word) : (s.setWord c v).portIn = s.portIn := by
  unfold State.setWord; split <;> rfl
@[simp] theorem State.setWord_epuIn (s : State) (c : Reg) (v : Word) : (s.setWord c v).epuIn = s.epuIn := by
  unfold State.setWord; split <;> rfl
@[simp] theorem State.setWord_bus (s : State) (c : Reg) (v : Word) : (s.setWord c v).bus = s.bus := by
  unfold State.setWord; split <;> rfl
@[simp] theorem State.setWord_trace (s : State) (c : Reg) (v : Word) : (s.setWord c v).trace = s.trace := by
  unfold State.setWord; split <;> rfl
@[simp] theorem State.setWord_freeCount (s : State) (c : Reg) (v : Word) : (s.setWord c v).freeCount = s.freeCount := by
  unfold State.setWord; split <;> rfl

/-! ### `State.setByte` -/

@[simp] theorem State.setByte_cfg (s : State) (c : Reg) (v : Byte) : (s.setByte c v).cfg = s.cfg := by
  simp [State.setByte]
@[simp] theorem State.setByte_pc (s : State) (c : Reg) (v : Byte) : (s.setByte c v).pc = s.pc := by
  simp [State.setByte]
@[simp] theorem State.setByte_fcw (s : State) (c : Reg) (v : Byte) : (s.setByte c v).fcw = s.fcw := by
  simp [State.setByte]
@[simp] theorem State.setByte_psap (s : State) (c : Reg) (v : Byte) : (s.setByte c v).psap = s.psap := by
  simp [State.setByte]
@[simp] theorem State.setByte_refresh (s : State) (c : Reg) (v : Byte) : (s.setByte c v).refresh = s.refresh := by
  simp [State.setByte]
@[simp] theorem State.setByte_mem (s : State) (c : Reg) (v : Byte) : (s.setByte c v).mem = s.mem := by
  simp [State.setByte]
@[simp] theorem State.setByte_mob (s : State) (c : Reg) (v : Byte) : (s.setByte c v).mob = s.mob := by
  simp [State.setByte]
@[simp] theorem State.setByte_halted (s : State) (c : Reg) (v : Byte) : (s.setByte c v).halted = s.halted := by
  simp [State.setByte]
@[simp] theorem State.setByte_nmiPending (s : State) (c : Reg) (v : Byte) : (s.setByte c v).nmiPending = s.nmiPending := by
  simp [State.setByte]
@[simp] theorem State.setByte_resetting (s : State) (c : Reg) (v : Byte) : (s.setByte c v).resetting = s.resetting := by
  simp [State.setByte]
@[simp] theorem State.setByte_ir (s : State) (c : Reg) (v : Byte) : (s.setByte c v).ir = s.ir := by
  simp [State.setByte]
@[simp] theorem State.setByte_ir2 (s : State) (c : Reg) (v : Byte) : (s.setByte c v).ir2 = s.ir2 := by
  simp [State.setByte]
@[simp] theorem State.setByte_repeating (s : State) (c : Reg) (v : Byte) : (s.setByte c v).repeating = s.repeating := by
  simp [State.setByte]
@[simp] theorem State.setByte_pins (s : State) (c : Reg) (v : Byte) : (s.setByte c v).pins = s.pins := by
  simp [State.setByte]
@[simp] theorem State.setByte_mib (s : State) (c : Reg) (v : Byte) : (s.setByte c v).mib = s.mib := by
  simp [State.setByte]
@[simp] theorem State.setByte_portIn (s : State) (c : Reg) (v : Byte) : (s.setByte c v).portIn = s.portIn := by
  simp [State.setByte]
@[simp] theorem State.setByte_epuIn (s : State) (c : Reg) (v : Byte) : (s.setByte c v).epuIn = s.epuIn := by
  simp [State.setByte]
@[simp] theorem State.setByte_bus (s : State) (c : Reg) (v : Byte) : (s.setByte c v).bus = s.bus := by
  simp [State.setByte]
@[simp] theorem State.setByte_trace (s : State) (c : Reg) (v : Byte) : (s.setByte c v).trace = s.trace := by
  simp [State.setByte]
@[simp] theorem State.setByte_freeCount (s : State) (c : Reg) (v : Byte) : (s.setByte c v).freeCount = s.freeCount := by
  simp [State.setByte]

/-! ### `State.setLong` -/

@[simp] theorem State.setLong_cfg (s : State) (c : Reg) (v : Long) : (s.setLong c v).cfg = s.cfg := by
  simp [State.setLong]
@[simp] theorem State.setLong_pc (s : State) (c : Reg) (v : Long) : (s.setLong c v).pc = s.pc := by
  simp [State.setLong]
@[simp] theorem State.setLong_fcw (s : State) (c : Reg) (v : Long) : (s.setLong c v).fcw = s.fcw := by
  simp [State.setLong]
@[simp] theorem State.setLong_psap (s : State) (c : Reg) (v : Long) : (s.setLong c v).psap = s.psap := by
  simp [State.setLong]
@[simp] theorem State.setLong_refresh (s : State) (c : Reg) (v : Long) : (s.setLong c v).refresh = s.refresh := by
  simp [State.setLong]
@[simp] theorem State.setLong_mem (s : State) (c : Reg) (v : Long) : (s.setLong c v).mem = s.mem := by
  simp [State.setLong]
@[simp] theorem State.setLong_mob (s : State) (c : Reg) (v : Long) : (s.setLong c v).mob = s.mob := by
  simp [State.setLong]
@[simp] theorem State.setLong_halted (s : State) (c : Reg) (v : Long) : (s.setLong c v).halted = s.halted := by
  simp [State.setLong]
@[simp] theorem State.setLong_nmiPending (s : State) (c : Reg) (v : Long) : (s.setLong c v).nmiPending = s.nmiPending := by
  simp [State.setLong]
@[simp] theorem State.setLong_resetting (s : State) (c : Reg) (v : Long) : (s.setLong c v).resetting = s.resetting := by
  simp [State.setLong]
@[simp] theorem State.setLong_ir (s : State) (c : Reg) (v : Long) : (s.setLong c v).ir = s.ir := by
  simp [State.setLong]
@[simp] theorem State.setLong_ir2 (s : State) (c : Reg) (v : Long) : (s.setLong c v).ir2 = s.ir2 := by
  simp [State.setLong]
@[simp] theorem State.setLong_repeating (s : State) (c : Reg) (v : Long) : (s.setLong c v).repeating = s.repeating := by
  simp [State.setLong]
@[simp] theorem State.setLong_pins (s : State) (c : Reg) (v : Long) : (s.setLong c v).pins = s.pins := by
  simp [State.setLong]
@[simp] theorem State.setLong_mib (s : State) (c : Reg) (v : Long) : (s.setLong c v).mib = s.mib := by
  simp [State.setLong]
@[simp] theorem State.setLong_portIn (s : State) (c : Reg) (v : Long) : (s.setLong c v).portIn = s.portIn := by
  simp [State.setLong]
@[simp] theorem State.setLong_epuIn (s : State) (c : Reg) (v : Long) : (s.setLong c v).epuIn = s.epuIn := by
  simp [State.setLong]
@[simp] theorem State.setLong_bus (s : State) (c : Reg) (v : Long) : (s.setLong c v).bus = s.bus := by
  simp [State.setLong]
@[simp] theorem State.setLong_trace (s : State) (c : Reg) (v : Long) : (s.setLong c v).trace = s.trace := by
  simp [State.setLong]
@[simp] theorem State.setLong_freeCount (s : State) (c : Reg) (v : Long) : (s.setLong c v).freeCount = s.freeCount := by
  simp [State.setLong]

/-! ### `State.setQuad` -/

@[simp] theorem State.setQuad_cfg (s : State) (c : Reg) (v : Quad) : (s.setQuad c v).cfg = s.cfg := by
  simp [State.setQuad]
@[simp] theorem State.setQuad_pc (s : State) (c : Reg) (v : Quad) : (s.setQuad c v).pc = s.pc := by
  simp [State.setQuad]
@[simp] theorem State.setQuad_fcw (s : State) (c : Reg) (v : Quad) : (s.setQuad c v).fcw = s.fcw := by
  simp [State.setQuad]
@[simp] theorem State.setQuad_psap (s : State) (c : Reg) (v : Quad) : (s.setQuad c v).psap = s.psap := by
  simp [State.setQuad]
@[simp] theorem State.setQuad_refresh (s : State) (c : Reg) (v : Quad) : (s.setQuad c v).refresh = s.refresh := by
  simp [State.setQuad]
@[simp] theorem State.setQuad_mem (s : State) (c : Reg) (v : Quad) : (s.setQuad c v).mem = s.mem := by
  simp [State.setQuad]
@[simp] theorem State.setQuad_mob (s : State) (c : Reg) (v : Quad) : (s.setQuad c v).mob = s.mob := by
  simp [State.setQuad]
@[simp] theorem State.setQuad_halted (s : State) (c : Reg) (v : Quad) : (s.setQuad c v).halted = s.halted := by
  simp [State.setQuad]
@[simp] theorem State.setQuad_nmiPending (s : State) (c : Reg) (v : Quad) : (s.setQuad c v).nmiPending = s.nmiPending := by
  simp [State.setQuad]
@[simp] theorem State.setQuad_resetting (s : State) (c : Reg) (v : Quad) : (s.setQuad c v).resetting = s.resetting := by
  simp [State.setQuad]
@[simp] theorem State.setQuad_ir (s : State) (c : Reg) (v : Quad) : (s.setQuad c v).ir = s.ir := by
  simp [State.setQuad]
@[simp] theorem State.setQuad_ir2 (s : State) (c : Reg) (v : Quad) : (s.setQuad c v).ir2 = s.ir2 := by
  simp [State.setQuad]
@[simp] theorem State.setQuad_repeating (s : State) (c : Reg) (v : Quad) : (s.setQuad c v).repeating = s.repeating := by
  simp [State.setQuad]
@[simp] theorem State.setQuad_pins (s : State) (c : Reg) (v : Quad) : (s.setQuad c v).pins = s.pins := by
  simp [State.setQuad]
@[simp] theorem State.setQuad_mib (s : State) (c : Reg) (v : Quad) : (s.setQuad c v).mib = s.mib := by
  simp [State.setQuad]
@[simp] theorem State.setQuad_portIn (s : State) (c : Reg) (v : Quad) : (s.setQuad c v).portIn = s.portIn := by
  simp [State.setQuad]
@[simp] theorem State.setQuad_epuIn (s : State) (c : Reg) (v : Quad) : (s.setQuad c v).epuIn = s.epuIn := by
  simp [State.setQuad]
@[simp] theorem State.setQuad_bus (s : State) (c : Reg) (v : Quad) : (s.setQuad c v).bus = s.bus := by
  simp [State.setQuad]
@[simp] theorem State.setQuad_trace (s : State) (c : Reg) (v : Quad) : (s.setQuad c v).trace = s.trace := by
  simp [State.setQuad]
@[simp] theorem State.setQuad_freeCount (s : State) (c : Reg) (v : Quad) : (s.setQuad c v).freeCount = s.freeCount := by
  simp [State.setQuad]

/-! ### `State.intermediate`: it changes the points alone -/

@[simp] theorem State.intermediate_cfg (cs : List Reg) (s : State) : (s.intermediate cs).cfg = s.cfg := rfl
@[simp] theorem State.intermediate_regs (cs : List Reg) (s : State) : (s.intermediate cs).regs = s.regs := rfl
@[simp] theorem State.intermediate_nsp (cs : List Reg) (s : State) : (s.intermediate cs).nsp = s.nsp := rfl
@[simp] theorem State.intermediate_pc (cs : List Reg) (s : State) : (s.intermediate cs).pc = s.pc := rfl
@[simp] theorem State.intermediate_fcw (cs : List Reg) (s : State) : (s.intermediate cs).fcw = s.fcw := rfl
@[simp] theorem State.intermediate_psap (cs : List Reg) (s : State) : (s.intermediate cs).psap = s.psap := rfl
@[simp] theorem State.intermediate_refresh (cs : List Reg) (s : State) : (s.intermediate cs).refresh = s.refresh := rfl
@[simp] theorem State.intermediate_mem (cs : List Reg) (s : State) : (s.intermediate cs).mem = s.mem := rfl
@[simp] theorem State.intermediate_mob (cs : List Reg) (s : State) : (s.intermediate cs).mob = s.mob := rfl
@[simp] theorem State.intermediate_halted (cs : List Reg) (s : State) : (s.intermediate cs).halted = s.halted := rfl
@[simp] theorem State.intermediate_nmiPending (cs : List Reg) (s : State) : (s.intermediate cs).nmiPending = s.nmiPending := rfl
@[simp] theorem State.intermediate_resetting (cs : List Reg) (s : State) : (s.intermediate cs).resetting = s.resetting := rfl
@[simp] theorem State.intermediate_ir (cs : List Reg) (s : State) : (s.intermediate cs).ir = s.ir := rfl
@[simp] theorem State.intermediate_ir2 (cs : List Reg) (s : State) : (s.intermediate cs).ir2 = s.ir2 := rfl
@[simp] theorem State.intermediate_repeating (cs : List Reg) (s : State) : (s.intermediate cs).repeating = s.repeating := rfl
@[simp] theorem State.intermediate_pins (cs : List Reg) (s : State) : (s.intermediate cs).pins = s.pins := rfl
@[simp] theorem State.intermediate_mib (cs : List Reg) (s : State) : (s.intermediate cs).mib = s.mib := rfl
@[simp] theorem State.intermediate_portIn (cs : List Reg) (s : State) : (s.intermediate cs).portIn = s.portIn := rfl
@[simp] theorem State.intermediate_epuIn (cs : List Reg) (s : State) : (s.intermediate cs).epuIn = s.epuIn := rfl
@[simp] theorem State.intermediate_bus (cs : List Reg) (s : State) : (s.intermediate cs).bus = s.bus := rfl
@[simp] theorem State.intermediate_freeCount (cs : List Reg) (s : State) : (s.intermediate cs).freeCount = s.freeCount := rfl
@[simp] theorem State.intermediate_word (cs : List Reg) (s : State) (c : Reg) : (s.intermediate cs).word c = s.word c := rfl
@[simp] theorem State.intermediate_byte (cs : List Reg) (s : State) (c : Reg) : (s.intermediate cs).byte c = s.byte c := rfl
@[simp] theorem State.intermediate_long (cs : List Reg) (s : State) (c : Reg) : (s.intermediate cs).long c = s.long c := rfl
@[simp] theorem State.intermediate_quad (cs : List Reg) (s : State) (c : Reg) : (s.intermediate cs).quad c = s.quad c := rfl

/-! ### `State.pokeWord` -/

@[simp] theorem State.pokeWord_cfg (s : State) (sp : Space) (a v : Word) : (s.pokeWord sp a v).cfg = s.cfg := rfl
@[simp] theorem State.pokeWord_regs (s : State) (sp : Space) (a v : Word) : (s.pokeWord sp a v).regs = s.regs := rfl
@[simp] theorem State.pokeWord_nsp (s : State) (sp : Space) (a v : Word) : (s.pokeWord sp a v).nsp = s.nsp := rfl
@[simp] theorem State.pokeWord_pc (s : State) (sp : Space) (a v : Word) : (s.pokeWord sp a v).pc = s.pc := rfl
@[simp] theorem State.pokeWord_fcw (s : State) (sp : Space) (a v : Word) : (s.pokeWord sp a v).fcw = s.fcw := rfl
@[simp] theorem State.pokeWord_psap (s : State) (sp : Space) (a v : Word) : (s.pokeWord sp a v).psap = s.psap := rfl
@[simp] theorem State.pokeWord_refresh (s : State) (sp : Space) (a v : Word) : (s.pokeWord sp a v).refresh = s.refresh := rfl
@[simp] theorem State.pokeWord_mob (s : State) (sp : Space) (a v : Word) : (s.pokeWord sp a v).mob = s.mob := rfl
@[simp] theorem State.pokeWord_halted (s : State) (sp : Space) (a v : Word) : (s.pokeWord sp a v).halted = s.halted := rfl
@[simp] theorem State.pokeWord_nmiPending (s : State) (sp : Space) (a v : Word) : (s.pokeWord sp a v).nmiPending = s.nmiPending := rfl
@[simp] theorem State.pokeWord_resetting (s : State) (sp : Space) (a v : Word) : (s.pokeWord sp a v).resetting = s.resetting := rfl
@[simp] theorem State.pokeWord_ir (s : State) (sp : Space) (a v : Word) : (s.pokeWord sp a v).ir = s.ir := rfl
@[simp] theorem State.pokeWord_ir2 (s : State) (sp : Space) (a v : Word) : (s.pokeWord sp a v).ir2 = s.ir2 := rfl
@[simp] theorem State.pokeWord_repeating (s : State) (sp : Space) (a v : Word) : (s.pokeWord sp a v).repeating = s.repeating := rfl
@[simp] theorem State.pokeWord_pins (s : State) (sp : Space) (a v : Word) : (s.pokeWord sp a v).pins = s.pins := rfl
@[simp] theorem State.pokeWord_mib (s : State) (sp : Space) (a v : Word) : (s.pokeWord sp a v).mib = s.mib := rfl
@[simp] theorem State.pokeWord_portIn (s : State) (sp : Space) (a v : Word) : (s.pokeWord sp a v).portIn = s.portIn := rfl
@[simp] theorem State.pokeWord_epuIn (s : State) (sp : Space) (a v : Word) : (s.pokeWord sp a v).epuIn = s.epuIn := rfl
@[simp] theorem State.pokeWord_bus (s : State) (sp : Space) (a v : Word) : (s.pokeWord sp a v).bus = s.bus := rfl
@[simp] theorem State.pokeWord_trace (s : State) (sp : Space) (a v : Word) : (s.pokeWord sp a v).trace = s.trace := rfl
@[simp] theorem State.pokeWord_freeCount (s : State) (sp : Space) (a v : Word) : (s.pokeWord sp a v).freeCount = s.freeCount := rfl

/-! ### Registers and memory read after an update of another part -/

@[simp] theorem State.setPc_word (s : State) (x : Word) (c : Reg) : (s.setPc x).word c = s.word c := rfl
@[simp] theorem State.setPc_byte (s : State) (x : Word) (c : Reg) : (s.setPc x).byte c = s.byte c := rfl
@[simp] theorem State.setPc_long (s : State) (x : Word) (c : Reg) : (s.setPc x).long c = s.long c := rfl
@[simp] theorem State.setPc_quad (s : State) (x : Word) (c : Reg) : (s.setPc x).quad c = s.quad c := rfl
@[simp] theorem State.setPc_key (s : State) (x : Word) (p : Space) (a : Word) : (s.setPc x).key p a = s.key p a := rfl
@[simp] theorem State.setPc_peek (s : State) (x : Word) (p : Space) (a : Word) : (s.setPc x).peek p a = s.peek p a := rfl
@[simp] theorem State.setPc_peekWord (s : State) (x : Word) (p : Space) (a : Word) :
    (s.setPc x).peekWord p a = s.peekWord p a := rfl
@[simp] theorem State.mark_word (s : State) (q : Point) (c : Reg) : (s.mark q).word c = s.word c := rfl
@[simp] theorem State.mark_byte (s : State) (q : Point) (c : Reg) : (s.mark q).byte c = s.byte c := rfl
@[simp] theorem State.mark_long (s : State) (q : Point) (c : Reg) : (s.mark q).long c = s.long c := rfl
@[simp] theorem State.mark_quad (s : State) (q : Point) (c : Reg) : (s.mark q).quad c = s.quad c := rfl
@[simp] theorem State.mark_key (s : State) (q : Point) (p : Space) (a : Word) : (s.mark q).key p a = s.key p a := rfl
@[simp] theorem State.mark_peek (s : State) (q : Point) (p : Space) (a : Word) : (s.mark q).peek p a = s.peek p a := rfl
@[simp] theorem State.mark_peekWord (s : State) (q : Point) (p : Space) (a : Word) :
    (s.mark q).peekWord p a = s.peekWord p a := rfl
@[simp] theorem State.access_word (s : State) (o : Option Word) (e : BusEvent) (c : Reg) : (s.access o e).word c = s.word c := rfl
@[simp] theorem State.access_byte (s : State) (o : Option Word) (e : BusEvent) (c : Reg) : (s.access o e).byte c = s.byte c := rfl
@[simp] theorem State.access_long (s : State) (o : Option Word) (e : BusEvent) (c : Reg) : (s.access o e).long c = s.long c := rfl
@[simp] theorem State.access_quad (s : State) (o : Option Word) (e : BusEvent) (c : Reg) : (s.access o e).quad c = s.quad c := rfl
@[simp] theorem State.access_key (s : State) (o : Option Word) (e : BusEvent) (p : Space) (a : Word) : (s.access o e).key p a = s.key p a := rfl
@[simp] theorem State.access_peek (s : State) (o : Option Word) (e : BusEvent) (p : Space) (a : Word) : (s.access o e).peek p a = s.peek p a := rfl
@[simp] theorem State.access_peekWord (s : State) (o : Option Word) (e : BusEvent) (p : Space) (a : Word) :
    (s.access o e).peekWord p a = s.peekWord p a := rfl
@[simp] theorem State.note_word (s : State) (e : BusEvent) (c : Reg) : (s.note e).word c = s.word c := rfl
@[simp] theorem State.note_byte (s : State) (e : BusEvent) (c : Reg) : (s.note e).byte c = s.byte c := rfl
@[simp] theorem State.note_long (s : State) (e : BusEvent) (c : Reg) : (s.note e).long c = s.long c := rfl
@[simp] theorem State.note_quad (s : State) (e : BusEvent) (c : Reg) : (s.note e).quad c = s.quad c := rfl
@[simp] theorem State.note_key (s : State) (e : BusEvent) (p : Space) (a : Word) : (s.note e).key p a = s.key p a := rfl
@[simp] theorem State.note_peek (s : State) (e : BusEvent) (p : Space) (a : Word) : (s.note e).peek p a = s.peek p a := rfl
@[simp] theorem State.note_peekWord (s : State) (e : BusEvent) (p : Space) (a : Word) :
    (s.note e).peekWord p a = s.peekWord p a := rfl
@[simp] theorem State.bumpFree_word (s : State) (c : Reg) : (s.bumpFree).word c = s.word c := rfl
@[simp] theorem State.bumpFree_byte (s : State) (c : Reg) : (s.bumpFree).byte c = s.byte c := rfl
@[simp] theorem State.bumpFree_long (s : State) (c : Reg) : (s.bumpFree).long c = s.long c := rfl
@[simp] theorem State.bumpFree_quad (s : State) (c : Reg) : (s.bumpFree).quad c = s.quad c := rfl
@[simp] theorem State.bumpFree_key (s : State) (p : Space) (a : Word) : (s.bumpFree).key p a = s.key p a := rfl
@[simp] theorem State.bumpFree_peek (s : State) (p : Space) (a : Word) : (s.bumpFree).peek p a = s.peek p a := rfl
@[simp] theorem State.bumpFree_peekWord (s : State) (p : Space) (a : Word) :
    (s.bumpFree).peekWord p a = s.peekWord p a := rfl
@[simp] theorem State.poke_word (s : State) (sp : Space) (x : Word) (v : Byte) (c : Reg) : (s.poke sp x v).word c = s.word c := rfl
@[simp] theorem State.poke_byte (s : State) (sp : Space) (x : Word) (v : Byte) (c : Reg) : (s.poke sp x v).byte c = s.byte c := rfl
@[simp] theorem State.poke_long (s : State) (sp : Space) (x : Word) (v : Byte) (c : Reg) : (s.poke sp x v).long c = s.long c := rfl
@[simp] theorem State.poke_quad (s : State) (sp : Space) (x : Word) (v : Byte) (c : Reg) : (s.poke sp x v).quad c = s.quad c := rfl
@[simp] theorem State.poke_key (s : State) (sp : Space) (x : Word) (v : Byte) (p : Space) (a : Word) : (s.poke sp x v).key p a = s.key p a := rfl
@[simp] theorem State.pokeWord_word (s : State) (sp : Space) (x v : Word) (c : Reg) : (s.pokeWord sp x v).word c = s.word c := rfl
@[simp] theorem State.pokeWord_byte (s : State) (sp : Space) (x v : Word) (c : Reg) : (s.pokeWord sp x v).byte c = s.byte c := rfl
@[simp] theorem State.pokeWord_long (s : State) (sp : Space) (x v : Word) (c : Reg) : (s.pokeWord sp x v).long c = s.long c := rfl
@[simp] theorem State.pokeWord_quad (s : State) (sp : Space) (x v : Word) (c : Reg) : (s.pokeWord sp x v).quad c = s.quad c := rfl
@[simp] theorem State.pokeWord_key (s : State) (sp : Space) (x v : Word) (p : Space) (a : Word) : (s.pokeWord sp x v).key p a = s.key p a := rfl
@[simp] theorem State.setWord_key (s : State) (c : Reg) (v : Word) (p : Space) (x : Word) : (s.setWord c v).key p x = s.key p x := by
  simp [State.key]
@[simp] theorem State.setWord_peek (s : State) (c : Reg) (v : Word) (p : Space) (x : Word) : (s.setWord c v).peek p x = s.peek p x := by
  simp [State.peek]
@[simp] theorem State.setWord_peekWord (s : State) (c : Reg) (v : Word) (p : Space) (x : Word) :
    (s.setWord c v).peekWord p x = s.peekWord p x := by
  simp [State.peekWord]
@[simp] theorem State.setByte_key (s : State) (c : Reg) (v : Byte) (p : Space) (x : Word) : (s.setByte c v).key p x = s.key p x := by
  simp [State.key]
@[simp] theorem State.setByte_peek (s : State) (c : Reg) (v : Byte) (p : Space) (x : Word) : (s.setByte c v).peek p x = s.peek p x := by
  simp [State.peek]
@[simp] theorem State.setByte_peekWord (s : State) (c : Reg) (v : Byte) (p : Space) (x : Word) :
    (s.setByte c v).peekWord p x = s.peekWord p x := by
  simp [State.peekWord]
@[simp] theorem State.setLong_key (s : State) (c : Reg) (v : Long) (p : Space) (x : Word) : (s.setLong c v).key p x = s.key p x := by
  simp [State.key]
@[simp] theorem State.setLong_peek (s : State) (c : Reg) (v : Long) (p : Space) (x : Word) : (s.setLong c v).peek p x = s.peek p x := by
  simp [State.peek]
@[simp] theorem State.setLong_peekWord (s : State) (c : Reg) (v : Long) (p : Space) (x : Word) :
    (s.setLong c v).peekWord p x = s.peekWord p x := by
  simp [State.peekWord]
@[simp] theorem State.setQuad_key (s : State) (c : Reg) (v : Quad) (p : Space) (x : Word) : (s.setQuad c v).key p x = s.key p x := by
  simp [State.key]
@[simp] theorem State.setQuad_peek (s : State) (c : Reg) (v : Quad) (p : Space) (x : Word) : (s.setQuad c v).peek p x = s.peek p x := by
  simp [State.peek]
@[simp] theorem State.setQuad_peekWord (s : State) (c : Reg) (v : Quad) (p : Space) (x : Word) :
    (s.setQuad c v).peekWord p x = s.peekWord p x := by
  simp [State.peekWord]

/-! ### `resetState` -/

@[simp] theorem resetState_cfg (s : State) : (resetState s).cfg = s.cfg := rfl
@[simp] theorem resetState_regs (s : State) : (resetState s).regs = s.regs := rfl
@[simp] theorem resetState_nsp (s : State) : (resetState s).nsp = s.nsp := rfl
@[simp] theorem resetState_pc (s : State) : (resetState s).pc = s.pc := rfl
@[simp] theorem resetState_fcw (s : State) : (resetState s).fcw = { s.fcw with sys := true } := rfl
@[simp] theorem resetState_psap (s : State) : (resetState s).psap = 0 := rfl
@[simp] theorem resetState_refresh (s : State) : (resetState s).refresh = s.refreshKept (Config.refreshRow s.freeCount) := rfl
@[simp] theorem resetState_mem (s : State) : (resetState s).mem = s.mem := rfl
@[simp] theorem resetState_mob (s : State) : (resetState s).mob = true := rfl
@[simp] theorem resetState_halted (s : State) : (resetState s).halted = false := rfl
@[simp] theorem resetState_nmiPending (s : State) : (resetState s).nmiPending = false := rfl
@[simp] theorem resetState_resetting (s : State) : (resetState s).resetting = true := rfl
@[simp] theorem resetState_ir (s : State) : (resetState s).ir = 0 := rfl
@[simp] theorem resetState_ir2 (s : State) : (resetState s).ir2 = 0 := rfl
@[simp] theorem resetState_repeating (s : State) : (resetState s).repeating = false := rfl
@[simp] theorem resetState_pins (s : State) : (resetState s).pins = s.pins := rfl
@[simp] theorem resetState_mib (s : State) : (resetState s).mib = s.mib := rfl
@[simp] theorem resetState_portIn (s : State) : (resetState s).portIn = s.portIn := rfl
@[simp] theorem resetState_epuIn (s : State) : (resetState s).epuIn = s.epuIn := rfl
@[simp] theorem resetState_bus (s : State) : (resetState s).bus = s.bus := rfl
@[simp] theorem resetState_trace (s : State) : (resetState s).trace = s.trace := rfl
@[simp] theorem resetState_freeCount (s : State) : (resetState s).freeCount = s.freeCount + s.rowRuns.toNat := rfl

/-! ### `leftBetween` -/

@[simp] theorem leftBetween_cfg (now next : Point) (done : List BusEvent) (free : Nat) (s : State) :
    (leftBetween now next done free s).cfg = s.cfg := by cases s; rfl
@[simp] theorem leftBetween_pc (now next : Point) (done : List BusEvent) (free : Nat) (s : State) :
    (leftBetween now next done free s).pc = s.pc := by cases s; rfl
@[simp] theorem leftBetween_fcw (now next : Point) (done : List BusEvent) (free : Nat) (s : State) :
    (leftBetween now next done free s).fcw = s.fcw := by cases s; rfl
@[simp] theorem leftBetween_psap (now next : Point) (done : List BusEvent) (free : Nat) (s : State) :
    (leftBetween now next done free s).psap = s.psap := by cases s; rfl
@[simp] theorem leftBetween_mob (now next : Point) (done : List BusEvent) (free : Nat) (s : State) :
    (leftBetween now next done free s).mob = s.mob := by cases s; rfl
@[simp] theorem leftBetween_halted (now next : Point) (done : List BusEvent) (free : Nat) (s : State) :
    (leftBetween now next done free s).halted = s.halted := by cases s; rfl
@[simp] theorem leftBetween_nmiPending (now next : Point) (done : List BusEvent) (free : Nat) (s : State) :
    (leftBetween now next done free s).nmiPending = s.nmiPending := by cases s; rfl
@[simp] theorem leftBetween_resetting (now next : Point) (done : List BusEvent) (free : Nat) (s : State) :
    (leftBetween now next done free s).resetting = s.resetting := by cases s; rfl
@[simp] theorem leftBetween_ir (now next : Point) (done : List BusEvent) (free : Nat) (s : State) :
    (leftBetween now next done free s).ir = s.ir := by cases s; rfl
@[simp] theorem leftBetween_ir2 (now next : Point) (done : List BusEvent) (free : Nat) (s : State) :
    (leftBetween now next done free s).ir2 = s.ir2 := by cases s; rfl
@[simp] theorem leftBetween_repeating (now next : Point) (done : List BusEvent) (free : Nat) (s : State) :
    (leftBetween now next done free s).repeating = s.repeating := by cases s; rfl
@[simp] theorem leftBetween_pins (now next : Point) (done : List BusEvent) (free : Nat) (s : State) :
    (leftBetween now next done free s).pins = s.pins := by cases s; rfl
@[simp] theorem leftBetween_trace (now next : Point) (done : List BusEvent) (free : Nat) (s : State) :
    (leftBetween now next done free s).trace = s.trace := by cases s; rfl

end Sys2Proof.Machine
end

