-- ==== Sys2Proof/Laws/Ops.lean ====
section
/-! SUPPORT. Laws/Ops.lean: for each shared operation of Machine/Ops.lean and Machine/Operands.lean, what it answers, in
the terms of Safety.lean. -/

namespace Sys2Proof.Machine

/-! ### Registers -/

@[simp] theorem State.word_setWord_self (s : State) (c : Reg) (v : Word) : (s.setWord c v).word c = v := by
  unfold State.setWord State.word
  split <;> simp_all

theorem State.word_setWord_ne (s : State) {c r : Reg} (v : Word) (h : r ≠ c) : (s.setWord c v).word r = s.word r := by
  have : c.toNat ≠ r.toNat := fun e => h (BitVec.eq_of_toNat_eq e.symm)
  unfold State.setWord State.word
  by_cases hc : c = 15 <;> by_cases hr : r = 15 <;> by_cases hs : s.fcw.sys <;> simp_all

/-- What a register write leaves in every word register. -/
theorem State.word_setWord (s : State) (c r : Reg) (v : Word) :
    (s.setWord c v).word r = if r = c then v else s.word r := by
  split
  · simp_all
  · exact State.word_setWord_ne s v ‹_›

@[simp] theorem State.setWord_word (s : State) (c : Reg) : s.setWord c (s.word c) = s := by
  unfold State.setWord State.word
  split <;> simp

theorem State.setWord_setWord (s : State) (c : Reg) (v w : Word) : (s.setWord c v).setWord c w = s.setWord c w := by
  unfold State.setWord
  split <;> simp_all

/-- In system mode a register write leaves NSP, in normal mode it leaves SSP (R24). -/
theorem State.setWord_other_stack_pointer (s : State) (c : Reg) (v : Word) :
    (s.fcw.sys = true → (s.setWord c v).nsp = s.nsp) ∧ (s.fcw.sys = false → (s.setWord c v).regs[15] = s.regs[15]) := by
  unfold State.setWord
  refine ⟨fun h => by simp [h], fun h => ?_⟩
  by_cases hc : c = 15
  · simp [h, hc]
  · have : c.toNat ≠ 15 := fun e => hc (BitVec.eq_of_toNat_eq e)
    rw [if_neg (by simpa using fun e => absurd e hc)]
    simp [this]

@[simp] theorem hiByte_append (a b : Byte) : hiByte (a ++ b) = a := by
  unfold hiByte
  exact BitVec.extractLsb'_append_eq_left
@[simp] theorem loByte_append (a b : Byte) : loByte (a ++ b) = b := by
  unfold loByte
  exact BitVec.extractLsb'_append_eq_right
@[simp] theorem hiByte_append_loByte (w : Word) : hiByte w ++ loByte w = w := by
  apply BitVec.eq_of_getLsbD_eq
  intro i hi
  simp [hiByte, loByte]
  grind

@[simp] theorem State.byte_setByte_self (s : State) (c : Reg) (v : Byte) : (s.setByte c v).byte c = v := by
  unfold State.setByte State.byte
  cases h : c.msb <;> simp

/-- A byte write leaves every other byte register alone (R21). -/
theorem State.byte_setByte_ne (s : State) {c b : Reg} (v : Byte) (h : b ≠ c) : (s.setByte c v).byte b = s.byte b := by
  unfold State.setByte State.byte
  by_cases e : byteHome b = byteHome c
  · have : b.msb = !c.msb := by revert h e; revert b c; decide
    cases hc : c.msb <;> simp_all
  · simp [State.word_setWord_ne s _ e]

theorem State.long_setLong_self (s : State) (c : Reg) (v : Long) : (s.setLong c v).long c = v := by
  have h : c ≠ c + 1 := by revert c; decide
  unfold State.setLong State.long
  rw [State.word_setWord_self, State.word_setWord_ne _ _ h, State.word_setWord_self]
  apply BitVec.eq_of_getLsbD_eq; intro i hi; simp; grind

/-- `Reg(N, c)`: an odd pair code is refused (R25). -/
theorem readReg_eq (z : Size) (c : Reg) (s : State) :
    readReg z c s = if regFits z c then .ok (s.reg z c) else .error (.refuse (.illegalPair c)) := by
  cases z <;> simp [readReg, regFits, State.reg]

theorem writeReg_eq (z : Size) (c : Reg) (v : BitVec z.bits) (s : State) :
    writeReg z c v s = if regFits z c then .ok (s.setReg z c v) else .error (.refuse (.illegalPair c)) := by
  cases z <;> simp [writeReg, regFits, State.setReg]

/-- What a register write leaves in the word registers outside it. -/
theorem State.word_setReg_ne (z : Size) (c r : Reg) (v : BitVec z.bits) (s : State) (h : regCovers z c r = false) :
    (s.setReg z c v).word r = s.word r := by
  cases z <;> simp_all [State.setReg, regCovers, State.setByte, State.setLong, State.word_setWord]

/-! ### Memory -/

/-- Two addresses of one space have one key only when they are equal. -/
theorem State.key_inj (s : State) (sp : Space) (a b : Word) : s.key sp a = s.key sp b ↔ a = b := by
  constructor
  · intro h
    simp only [State.key, Cfg.key, Nat.add_left_cancel_iff] at h
    have := BitVec.eq_of_toNat_eq h
    simpa using this
  · rintro rfl; rfl

theorem State.peek_poke (s : State) (sp : Space) (a b : Word) (v : Byte) :
    (s.poke sp a v).peek sp b = if b = a then v else s.peek sp b := by
  show Memory.read (Memory.write s.mem (s.key sp a) v) (s.key sp b) = _
  rw [Memory.read_write]
  simp only [State.key_inj]
  rfl

/-- The word at a word just stored. -/
@[simp] theorem State.peekWord_pokeWord_self (s : State) (sp : Space) (a v : Word) :
    (s.pokeWord sp a v).peekWord sp a = v := by
  have h : a ≠ a + 1 := by intro e; have := congrArg BitVec.toNat e; simp at this; omega
  simp [State.peekWord, State.pokeWord, State.peek_poke]

/-- A word store leaves every key but its two alone. -/
theorem State.read_pokeWord_ne (s : State) (sp : Space) (a v : Word) (k : Nat) (h : k ≠ s.key sp a)
    (h' : k ≠ s.key sp (a + 1)) : Memory.read (s.pokeWord sp a v).mem k = Memory.read s.mem k := by
  show Memory.read (Memory.write (Memory.write s.mem (s.key sp a) (hiByte v)) (s.key sp (a + 1)) (loByte v)) k = _
  rw [Memory.read_write_ne _ _ h', Memory.read_write_ne _ _ h]

/-- Where an access that needs an even address goes, or why it stops (R86, R87). -/
theorem alignBy_eq (policy : OddPolicy) (why : Word → Fault) (a : Word) :
    alignBy policy why a = if a.getLsbD 0 = false ∨ policy = .ignoreA0 then .ok (evenAddress a)
      else .error (.fault (why a)) := by
  unfold alignBy
  by_cases h : a.getLsbD 0
  · cases policy <;> simp [h]
  · simp only [h, Bool.false_eq_true, if_false, true_or, if_true]
    congr 1
    have e : ~~~(0xFFFE : Word) = 1 := rfl
    apply BitVec.eq_of_getLsbD_eq
    intro i hi
    unfold evenAddress
    interval_cases i <;> simp_all

theorem evenAddress_add_two (a : Word) : (a + 2).getLsbD 0 = a.getLsbD 0 := by
  simp [BitVec.getLsbD, BitVec.toNat_add]

/-- A transaction changes the bus record and the points alone. -/
theorem State.access_spec (s : State) (o : Option Word) (e : BusEvent) :
    ∃ bus trace, s.access o e = { s with bus := bus, trace := trace } := ⟨_, _, rfl⟩

/-- A word read answers the word, and only the bus record grows. -/
theorem readWordAs_eq (st : Status) (sp : Space) (a : Word) (s : State) :
    readWordAs st sp a s = if s.reaches .w a then
        .ok (s.valueAt .w sp a,
          s.access (oddPart a) (.transfer st s.fcw.sys true false (evenAddress a) (s.valueAt .w sp a)))
      else .error (.fault (.misaligned a)) := by
  unfold readWordAs State.align
  rw [alignBy_eq]
  unfold State.reaches
  generalize a.getLsbD 0 = odd
  cases odd <;> cases s.cfg.misaligned <;> rfl

theorem writeWordAs_eq (st : Status) (sp : Space) (a v : Word) (s : State) :
    writeWordAs st sp a v s = if s.reaches .w a then
        .ok ((s.putAt .w sp a v).access (oddPart a) (.transfer st s.fcw.sys false false (evenAddress a) v))
      else .error (.fault (.misaligned a)) := by
  unfold writeWordAs State.align
  rw [alignBy_eq]
  unfold State.reaches
  generalize a.getLsbD 0 = odd
  cases odd <;> cases s.cfg.misaligned <;> rfl

/-- A read answers the value and only the bus record grows; else it stops with the address. -/
theorem load_spec (z : Size) (sp : Space) (a : Word) (s : State) :
    if s.reaches z a then ∃ bus trace, load z sp a s = .ok (s.valueAt z sp a, { s with bus := bus, trace := trace })
    else load z sp a s = .error (.fault (.misaligned a)) := by
  cases z with
  | b => exact ⟨_, _, rfl⟩
  | w =>
    simp only [load, readWordAs_eq]
    by_cases h : s.reaches .w a = true
    · simp only [h, if_true]; exact ⟨_, _, rfl⟩
    · simp [h]
  | l =>
    have e : s.reaches .l a = s.reaches .w a := rfl
    simp only [load, readWordAs_eq, e]
    by_cases h : s.reaches .w a = true
    · have h2 (t : State) (ht : t.cfg = s.cfg) : t.reaches .w (a + 2) = true := by
        unfold State.reaches at *
        rw [ht, evenAddress_add_two]
        exact h
      simp only [h, if_true]
      simp only [bind, Except.bind]
      rw [if_pos (h2 (State.access _ _ _) rfl)]
      exact ⟨_, _, rfl⟩
    · simp [h, bind, Except.bind]

/-- A store does not look at the bus record or the points. -/
theorem State.putAt_bus (z : Size) (sp : Space) (a : Word) (v : BitVec z.bits) (s : State) (bus : List BusEvent)
    (trace : Option (List Point)) :
    State.putAt z sp a v { s with bus := bus, trace := trace } =
      { s.putAt z sp a v with bus := bus, trace := trace } := by
  cases z <;> rfl

/-- A long store is two word stores, the upper half first (R83). -/
theorem State.putAt_long (sp : Space) (a : Word) (v : Long) (s : State) :
    State.putAt .l sp a v s =
      (s.putAt .w sp a (v.extractLsb' 16 16)).putAt .w sp (a + 2) (v.extractLsb' 0 16) := rfl

/-- A write leaves `putAt`, but for the bus record; else it stops with the address. -/
theorem store_spec (z : Size) (sp : Space) (a : Word) (v : BitVec z.bits) (s : State) :
    if s.reaches z a then ∃ bus trace, store z sp a v s = .ok { s.putAt z sp a v with bus := bus, trace := trace }
    else store z sp a v s = .error (.fault (.misaligned a)) := by
  cases z with
  | b => exact ⟨_, _, rfl⟩
  | w =>
    simp only [store, writeWordAs_eq]
    by_cases h : s.reaches .w a = true
    · obtain ⟨bus, trace, e⟩ := State.access_spec (s.putAt .w sp a v) (oddPart a)
        (.transfer sp.status s.fcw.sys false false (evenAddress a) v)
      rw [if_pos h, if_pos h, e]
      exact ⟨bus, trace, rfl⟩
    · simp [h]
  | l =>
    have e : s.reaches .l a = s.reaches .w a := rfl
    simp only [store, writeWordAs_eq, e]
    by_cases h : s.reaches .w a = true
    · have h2 (t : State) (ht : t.cfg = s.cfg) : t.reaches .w (a + 2) = true := by
        unfold State.reaches at *
        rw [ht, evenAddress_add_two]
        exact h
      simp only [h, if_true]
      simp only [bind, Except.bind]
      rw [if_pos (h2 (State.access (s.putAt .w sp a (v.extractLsb' 16 16)) _ _) rfl)]
      obtain ⟨bus, trace, e⟩ := State.access_spec (s.putAt .w sp a (v.extractLsb' 16 16)) (oddPart a)
        (.transfer sp.status s.fcw.sys false false (evenAddress a) (v.extractLsb' 16 16))
      rw [e, State.putAt_bus]
      rw [State.putAt_long]
      obtain ⟨bus', trace', e'⟩ := State.access_spec _ _ _
      exact ⟨bus', trace', congrArg Except.ok e'⟩
    · simp [h, bind, Except.bind]

/-- Memory reads change nothing but the bus record. -/
theorem load_ok {z : Size} {sp : Space} {a : Word} {s t : State} {v : BitVec z.bits} (h : load z sp a s = .ok (v, t)) :
    s.reaches z a = true ∧ v = s.valueAt z sp a ∧ ∃ bus trace, t = { s with bus := bus, trace := trace } := by
  have e := load_spec z sp a s
  split at e
  · obtain ⟨bus, trace, e⟩ := e
    rw [e] at h
    cases h
    exact ⟨‹_›, rfl, bus, trace, rfl⟩
  · rw [e] at h; cases h

theorem store_ok {z : Size} {sp : Space} {a : Word} {s t : State} {v : BitVec z.bits} (h : store z sp a v s = .ok t) :
    s.reaches z a = true ∧ ∃ bus trace, t = { s.putAt z sp a v with bus := bus, trace := trace } := by
  have e := store_spec z sp a v s
  split at e
  · obtain ⟨bus, trace, e⟩ := e
    rw [e] at h
    cases h
    exact ⟨‹_›, bus, trace, rfl⟩
  · rw [e] at h; cases h

/-- The canonical form of memory survives every store. -/
theorem State.putAt_wf (z : Size) (sp : Space) (a : Word) (v : BitVec z.bits) (s : State)
    (h : Memory.wf s.mem = true) : Memory.wf (s.putAt z sp a v).mem = true := by
  cases z with
  | b => exact State.poke_wf s sp a v h
  | w => exact State.pokeWord_wf s sp _ v h
  | l => exact State.pokeWord_wf _ sp _ _ (State.pokeWord_wf s sp _ _ h)

theorem store_wf {z : Size} {sp : Space} {a : Word} {s t : State} {v : BitVec z.bits} (h : store z sp a v s = .ok t)
    (w : Memory.wf s.mem = true) : Memory.wf t.mem = true := by
  obtain ⟨-, bus, trace, rfl⟩ := store_ok h
  exact State.putAt_wf z sp a v s w

/-! ### Operands -/

/-- A source that is ready gives its value; only the bus record can grow. -/
theorem readSrc_spec (z : Size) (src : Src z) (s : State) (h : s.srcReady z src = true) :
    ∃ bus trace, readSrc z src s = .ok (s.srcValue z src, { s with bus := bus, trace := trace }) := by
  cases src with
  | reg c =>
    have h : regFits z c = true := h
    exact ⟨s.bus, s.trace, by simp [readSrc, readReg_eq, h, State.srcValue]⟩
  | imm v => exact ⟨s.bus, s.trace, rfl⟩
  | mem m =>
    have e := load_spec z (memEA m s).1 (memEA m s).2 s
    rwa [if_pos (show s.reaches z (memEA m s).2 = true from h)] at e

/-- A destination that is ready gives its value; only the bus record can grow. -/
theorem readDst_spec (z : Size) (d : Dst) (s : State) (h : s.dstReady z d = true) :
    ∃ bus trace, readDst z d s = .ok (s.dstValue z d, { s with bus := bus, trace := trace }) := by
  cases d with
  | reg c =>
    have h : regFits z c = true := h
    exact ⟨s.bus, s.trace, by simp [readDst, readReg_eq, h, State.dstValue]⟩
  | mem m =>
    have e := load_spec z (memEA m s).1 (memEA m s).2 s
    rwa [if_pos (show s.reaches z (memEA m s).2 = true from h)] at e

/-- A destination that is ready takes its value; beyond it only the bus record can grow. -/
theorem writeDst_spec (z : Size) (d : Dst) (v : BitVec z.bits) (s : State) (h : s.dstReady z d = true) :
    ∃ bus trace, writeDst z d v s = .ok { s.putDst z d v with bus := bus, trace := trace } := by
  cases d with
  | reg c =>
    have h : regFits z c = true := h
    exact ⟨(s.putDst z (.reg c) v).bus, (s.putDst z (.reg c) v).trace, by simp [writeDst, writeReg_eq, h, State.putDst]⟩
  | mem m =>
    have e := store_spec z (memEA m s).1 (memEA m s).2 v s
    rwa [if_pos (show s.reaches z (memEA m s).2 = true from h)] at e

/-! ### Shared shapes -/

theorem modify_spec (z : Size) (d : Dst) (f : Unary z) (s : State) (h : s.dstReady z d = true) :
    ∃ bus trace, modify z d f s = .ok
      { (s.putDst z d (f (s.dstValue z d) s.fcw).1).setFcw (f (s.dstValue z d) s.fcw).2 with
        bus := bus, trace := trace } := by
  obtain ⟨bus, trace, e⟩ := readDst_spec z d s h
  have r : State.dstReady z d { s with bus := bus, trace := trace } = true := by cases d <;> exact h
  obtain ⟨bus', trace', e'⟩ := writeDst_spec z d (f (s.dstValue z d) s.fcw).1 { s with bus := bus, trace := trace } r
  refine ⟨bus', trace', ?_⟩
  simp only [modify, e, e', bind, Except.bind, pure, Except.pure]
  congr 1
  cases d with
  | reg c => cases z <;> simp only [State.putDst, State.setReg, State.setByte, State.setLong, State.setWord, State.word] <;>
      (split <;> (try split) <;> rfl)
  | mem m => cases z <;> rfl

theorem inspect_spec (z : Size) (d : Dst) (f : BitVec z.bits → Fcw → Fcw) (s : State) (h : s.dstReady z d = true) :
    ∃ bus trace, inspect z d f s = .ok { s.setFcw (f (s.dstValue z d) s.fcw) with bus := bus, trace := trace } := by
  obtain ⟨bus, trace, e⟩ := readDst_spec z d s h
  exact ⟨bus, trace, by simp only [inspect, e, bind, Except.bind]; rfl⟩

/-- A register write does not look at the bus record or the points. -/
theorem State.setReg_bus (z : Size) (c : Reg) (v : BitVec z.bits) (s : State) (bus : List BusEvent)
    (trace : Option (List Point)) :
    State.setReg z c v { s with bus := bus, trace := trace } = { s.setReg z c v with bus := bus, trace := trace } := by
  cases z <;> simp only [State.setReg, State.setByte, State.setLong, State.setWord, State.word] <;>
    (split <;> (try split) <;> rfl)

theorem State.reg_bus (z : Size) (c : Reg) (s : State) (bus : List BusEvent)
    (trace : Option (List Point)) :
    State.reg z c { s with bus := bus, trace := trace } = s.reg z c := by cases z <;> rfl

theorem binary_spec (z : Size) (d : Reg) (src : Src z) (f : Binary z) (s : State) (hd : regFits z d = true)
    (hs : s.srcReady z src = true) : ∃ bus trace, binary z d src f s = .ok
      { (s.setReg z d (f (s.reg z d) (s.srcValue z src) s.fcw).1).setFcw (f (s.reg z d) (s.srcValue z src) s.fcw).2 with
        bus := bus, trace := trace } := by
  obtain ⟨bus, trace, e⟩ := readSrc_spec z src s hs
  refine ⟨bus, trace, ?_⟩
  simp only [binary, e, readReg_eq, writeReg_eq, hd, if_true, bind, Except.bind, State.reg_bus, State.setReg_bus]
  rfl

theorem compare_spec (z : Size) (d : Reg) (src : Src z) (f : BitVec z.bits → BitVec z.bits → Fcw → Fcw) (s : State)
    (hd : regFits z d = true) (hs : s.srcReady z src = true) : ∃ bus trace, compare z d src f s = .ok
      { s.setFcw (f (s.reg z d) (s.srcValue z src) s.fcw) with bus := bus, trace := trace } := by
  obtain ⟨bus, trace, e⟩ := readSrc_spec z src s hs
  exact ⟨bus, trace, by simp only [compare, e, readReg_eq, hd, if_true, bind, Except.bind, State.reg_bus]; rfl⟩

theorem modifyReg_spec (z : Size) (d : Reg) (f : Unary z) (s : State) (hd : regFits z d = true) :
    modifyReg z d f s = .ok ((s.setReg z d (f (s.reg z d) s.fcw).1).setFcw (f (s.reg z d) s.fcw).2) := by
  simp only [modifyReg, readReg_eq, writeReg_eq, hd, if_true, bind, Except.bind]
  rfl

/-! ### The stack, the fetch and the program status -/

/-- A push lowers the stack pointer in use by 2 and stores there (R14). -/
theorem push_spec (v : Word) (s : State) (h : s.reaches .w (s.word 15 - 2) = true) :
    ∃ bus trace, push v s = .ok
      { (s.setWord 15 (s.word 15 - 2)).putAt .w .stack (s.word 15 - 2) v with bus := bus, trace := trace } := by
  have e := store_spec .w .stack (s.word 15 - 2) v (s.setWord 15 (s.word 15 - 2))
  have r : (s.setWord 15 (s.word 15 - 2)).reaches .w (s.word 15 - 2) = true := by simpa [State.reaches] using h
  rwa [if_pos r] at e

/-- A pop reads at the stack pointer in use and raises it by 2 (R14). -/
theorem pop_spec (s : State) (h : s.reaches .w (s.word 15) = true) :
    ∃ bus trace, pop s = .ok
      (s.valueAt .w .stack (s.word 15), { s.setWord 15 (s.word 15 + 2) with bus := bus, trace := trace }) := by
  have e := load_spec .w .stack (s.word 15) s
  rw [if_pos h] at e
  obtain ⟨bus, trace, e⟩ := e
  refine ⟨bus, trace, ?_⟩
  simp only [pop, e, bind, Except.bind, pure, Except.pure]
  congr 2
  simp only [State.setWord, State.word]
  split <;> rfl

/-- A fetch gives the word at PC and moves PC past it (R14, R31, R87). -/
theorem fetch_eq (st : Status) (s : State) :
    fetch st s = if s.pc.getLsbD 0 = false ∨ s.cfg.oddPc = .ignoreA0 then
        .ok (s.peekWord .prog (evenAddress s.pc),
          (s.note (.transfer st s.fcw.sys true false (evenAddress s.pc) (s.peekWord .prog (evenAddress s.pc)))).setPc
            (s.pc + 2))
      else .error (.fault (.oddFetch s.pc)) := by
  unfold fetch
  rw [alignBy_eq]
  split <;> rfl

/-- FCW and PC loaded from the Program space at even addresses (R1014). -/
theorem loadStatus_spec (f p : Word) (s : State) (hf : s.reaches .w f = true) (hp : s.reaches .w p = true) :
    ∃ bus trace, loadStatus f p s =
      .ok { s with
        fcw := Fcw.legal s.cfg (s.valueAt .w .prog f), pc := s.valueAt .w .prog p, bus := bus, trace := trace } := by
  have e := load_spec .w .prog f s
  rw [if_pos hf] at e
  obtain ⟨bus, trace, e⟩ := e
  have e' := load_spec .w .prog p { s with bus := bus, trace := trace }
  rw [if_pos (show State.reaches .w p { s with bus := bus, trace := trace } = true from hp)] at e'
  obtain ⟨bus', trace', e'⟩ := e'
  exact ⟨bus', trace', by simp only [loadStatus, e, e', bind, Except.bind]; rfl⟩

/-! ### FCW as a word -/

/-- What stands at a bit of `bitAt`. -/
theorem bitAt_getLsbD (n m : Nat) (b : Bool) (h : m < 16) : (bitAt n b).getLsbD m = (b && decide (m = n)) := by
  cases b <;> simp [bitAt, h]
  grind

/-! ### Reset -/

/-- A register that holds one value at both points holds it between them. -/
@[simp] theorem keptOrFree_same (n c : Nat) (v : Word) : keptOrFree n c v v = v := by simp [keptOrFree, keptByte]

/-- Byte by byte: a half of a register that has one value at both points has it between them (R21). -/
theorem keptOrFree_halves (n c : Nat) (before after : Word) :
    (hiByte before = hiByte after → hiByte (keptOrFree n c before after) = hiByte before) ∧
    (loByte before = loByte after → loByte (keptOrFree n c before after) = loByte before) := by
  constructor <;> intro h <;> simp [keptOrFree, keptByte, h]

/-- Only a step that keeps its points sees a point. -/
theorem State.intermediate_untraced (cs : List Reg) (s : State) (h : s.trace = none) : s.intermediate cs = s := by
  cases s
  simp_all [State.intermediate, State.mark]
theorem State.note_untraced (s : State) (e : BusEvent) (h : s.trace = none) :
    s.note e = { s with bus := e :: s.bus } := by
  cases s
  simp_all [State.note, State.access, State.mark]

/-- A recorded write keeps the canonical form of memory. -/
theorem applyWrite_wf (c : Cfg) (m : Memory) (e : BusEvent) (h : Memory.wf m = true) :
    Memory.wf (applyWrite c m e) = true := by
  unfold applyWrite
  split
  · split
    · exact h
    · split
      · exact Memory.wf_write _ _ _ h
      · exact Memory.wf_write _ _ _ (Memory.wf_write _ _ _ h)
  · exact h

@[simp] theorem abandoned_cfg (k : Nat) (s t : State) : (abandoned k s t).cfg = s.cfg := leftBetween_cfg ..
@[simp] theorem abandoned_fcw (k : Nat) (s t : State) : (abandoned k s t).fcw = s.fcw := leftBetween_fcw ..
@[simp] theorem abandoned_pins (k : Nat) (s t : State) : (abandoned k s t).pins = s.pins := leftBetween_pins ..

/-- An abandoned step leaves memory in canonical form. -/
theorem abandoned_wf (k : Nat) (s t : State) (h : Memory.wf s.mem = true) : Memory.wf (abandoned k s t).mem = true := by
  show Memory.wf ((transactions _ s t).foldl (applyWrite s.cfg) s.mem) = true
  generalize transactions _ s t = done
  generalize s.mem = m at h
  induction done generalizing m with
  | nil => exact h
  | cons e done ih => exact ih _ (applyWrite_wf _ _ _ h)

/-- A reset before the first point leaves memory and the bus record as they were. -/
theorem abandoned_zero (s t : State) : (abandoned 0 s t).mem = s.mem ∧ (abandoned 0 s t).bus = s.bus := by
  have h : (around 0 s t).1.made = s.bus.length := by simp [around, State.point]
  simp [abandoned, leftBetween, transactions, h]

/-- A register whose value is the same at the two points around the reset keeps it. -/
theorem abandoned_regs (k : Nat) (s t : State) (c : Fin 16)
    (h : (around k s t).1.regs[c] = (around k s t).2.regs[c]) :
    (abandoned k s t).regs[c] = (around k s t).1.regs[c] := by
  simp_all [abandoned, leftBetween]

/-- A reset among the fetches of an instruction changes PC and the bus record alone (R1100). -/
theorem fetchOnly_ok {k : Nat} {st : Status} {s t : State} (h : fetchOnly k st s = .ok t) :
    ∃ pc bus trace, t = { s with pc := pc, bus := bus, trace := trace } := by
  induction k generalizing st s with
  | zero => cases h; exact ⟨t.pc, t.bus, t.trace, rfl⟩
  | succ k ih =>
    simp only [fetchOnly, fetch_eq] at h
    split at h
    · obtain ⟨pc, bus, trace, rfl⟩ := ih h
      exact ⟨pc, bus, trace, rfl⟩
    · cases h

/-! ### The environment's inputs and the guards -/

/-- Taking the pins changes the queue of samples alone. -/
theorem takePins_snd (s : State) : (takePins s).2 = { s with pins := s.pins.tail } := by
  cases s with
  | mk cfg regs nsp pc fcw psap refresh mem mob halted nmiPending resetting ir ir2 repeating pins => cases pins <;> rfl

/-- In system mode, or outside `PRIV_SET`, the body runs; else the Privileged Instruction Trap is entered (R1030). -/
theorem privileged_eq (i : Instr) (words : Word) (body : State → Comp State) (s : State) :
    privileged i words body s =
      if s.allowed i then body s else enter .privileged (s.afterFirst words) s.ir s := by
  unfold privileged State.allowed
  cases s.fcw.sys <;> cases privilegedWord s.cfg.privSet (firstWordOf i) <;> rfl

/-- With `REV = Full` and EPA = 1 the body runs; else a trap is entered (R950, R951, R959). -/
theorem extended_eq (words : Word) (body : State → Comp State) (s : State) :
    extended words body s =
      if s.extendedRuns then body s
      else enter (if s.cfg.rev = .rev1 then .systemCall else .extended) (s.afterFirst words) s.ir s := by
  unfold extended State.extendedRuns
  cases s.cfg.rev <;> cases s.fcw.epa <;> rfl

/-- A computation that answers is a next state of the step. -/
theorem answer_next {x : Comp State} {t : State} : answer x = .next t ↔ x = .ok t := by
  cases x with
  | ok s => simp [answer]
  | error e => cases e <;> simp [answer]

/-- What a step answers that a reset abandons: a reset state, with the parameters, the coming pins and the FCW of `s`, and
memory still in canonical form, untouched before the first point (R1100, D12). -/
theorem interruptedAfter_next {k : Nat} {p : PinSample} {s t : State} (h : interruptedAfter k p s = .next t) :
    ∃ u, t = resetState u ∧ u.cfg = s.cfg ∧ u.pins = s.pins ∧ u.fcw = s.fcw ∧
      (Memory.wf s.mem = true → Memory.wf u.mem = true) ∧ (k = 0 → u.mem = s.mem) := by
  unfold interruptedAfter at h
  split at h
  · rw [answer_next] at h
    cases e : fetchOnly k .firstWord s with
    | error r => rw [e] at h; cases h
    | ok u =>
      rw [e] at h
      cases h
      obtain ⟨pc, bus, trace, rfl⟩ := fetchOnly_ok e
      exact ⟨{ s with pc := pc, bus := bus, trace := trace }, rfl, rfl, rfl, rfl, id, fun _ => rfl⟩
  · split at h
    · cases h
    · cases h
    · rename_i u _
      split at h
      · cases h
      · cases h
        refine ⟨abandoned k s u, rfl, abandoned_cfg k s u, abandoned_pins k s u, abandoned_fcw k s u, abandoned_wf k s u, fun e => ?_⟩
        rw [e]
        exact (abandoned_zero s u).1

end Sys2Proof.Machine
end

