-- ==== Sys2Proof/Laws/PerInstr.lean ====
section
/-! SUPPORT. Laws/PerInstr.lean: one lemma per constructor of Instr for each family of LAWS.json. -/

namespace Sys2Proof.Laws

/-- The encoder writes one, two or three words (R110). -/
def Lengths.Statement (i : Instr) : Prop := 1 ≤ (encode i).length ∧ (encode i).length ≤ 3

/-- The length of a term is a closed number, so the bounds are decided. -/
theorem lengths_of {i : Instr} (h : decide (1 ≤ (encode i).length ∧ (encode i).length ≤ 3) = true) :
    Lengths.Statement i := by
  unfold Lengths.Statement; exact of_decide_eq_true h

theorem Lengths.clr (dst : Dst) : Lengths.Statement (.clr dst) := by
  rcases dst with _ | (_ | _ | _) <;> exact lengths_of rfl
theorem Lengths.clrb (dst : Dst) : Lengths.Statement (.clrb dst) := by
  rcases dst with _ | (_ | _ | _) <;> exact lengths_of rfl
theorem Lengths.ex (d : Reg) (src : Dst) : Lengths.Statement (.ex d src) := by
  rcases src with _ | (_ | _ | _) <;> exact lengths_of rfl
theorem Lengths.exb (d : Reg) (src : Dst) : Lengths.Statement (.exb d src) := by
  rcases src with _ | (_ | _ | _) <;> exact lengths_of rfl
theorem Lengths.ld (d : Reg) (src : LdSrc) : Lengths.Statement (.ld d src) := by
  rcases src with _ | ((_ | _ | _) | _ | _) <;> exact lengths_of rfl
theorem Lengths.ldb (d : Reg) (src : LdSrc) : Lengths.Statement (.ldb d src) := by
  rcases src with _ | ((_ | _ | _) | _ | _) <;> exact lengths_of rfl
theorem Lengths.ldl (d : Reg) (src : LdSrc) : Lengths.Statement (.ldl d src) := by
  rcases src with _ | ((_ | _ | _) | _ | _) <;> exact lengths_of rfl
theorem Lengths.ldStore (dst : LdMem) (s : Reg) : Lengths.Statement (.ldStore dst s) := by
  rcases dst with (_ | _ | _) | _ | _ <;> exact lengths_of rfl
theorem Lengths.ldbStore (dst : LdMem) (s : Reg) : Lengths.Statement (.ldbStore dst s) := by
  rcases dst with (_ | _ | _) | _ | _ <;> exact lengths_of rfl
theorem Lengths.ldlStore (dst : LdMem) (s : Reg) : Lengths.Statement (.ldlStore dst s) := by
  rcases dst with (_ | _ | _) | _ | _ <;> exact lengths_of rfl
theorem Lengths.ldImm (dst : Dst) (data : Word) : Lengths.Statement (.ldImm dst data) := by
  rcases dst with _ | (_ | _ | _) <;> exact lengths_of rfl
theorem Lengths.ldbImm (dst : Dst) (data : Byte) : Lengths.Statement (.ldbImm dst data) := by
  rcases dst with _ | (_ | _ | _) <;> exact lengths_of rfl
theorem Lengths.ldbImmCompact (d : Reg) (data : Byte) : Lengths.Statement (.ldbImmCompact d data) := by
  exact lengths_of rfl
theorem Lengths.ldlImm (d : Reg) (data : Long) : Lengths.Statement (.ldlImm d data) := by
  exact lengths_of rfl
theorem Lengths.lda (d : Reg) (src : AddrForm) : Lengths.Statement (.lda d src) := by
  rcases src with _ | _ | _ | _ <;> exact lengths_of rfl
theorem Lengths.ldar (d : Reg) (disp : Word) : Lengths.Statement (.ldar d disp) := by
  exact lengths_of rfl
theorem Lengths.ldk (d : Reg) (k : BitVec 4) : Lengths.Statement (.ldk d k) := by
  exact lengths_of rfl
theorem Lengths.ldmLoad (d : Reg) (src : Mem) (n : BitVec 4) : Lengths.Statement (.ldmLoad d src n) := by
  rcases src with _ | _ | _ <;> exact lengths_of rfl
theorem Lengths.ldmStore (dst : Mem) (s : Reg) (n : BitVec 4) : Lengths.Statement (.ldmStore dst s n) := by
  rcases dst with _ | _ | _ <;> exact lengths_of rfl
theorem Lengths.ldr (d : Reg) (disp : Word) : Lengths.Statement (.ldr d disp) := by
  exact lengths_of rfl
theorem Lengths.ldrb (d : Reg) (disp : Word) : Lengths.Statement (.ldrb d disp) := by
  exact lengths_of rfl
theorem Lengths.ldrl (d : Reg) (disp : Word) : Lengths.Statement (.ldrl d disp) := by
  exact lengths_of rfl
theorem Lengths.ldrStore (disp : Word) (s : Reg) : Lengths.Statement (.ldrStore disp s) := by
  exact lengths_of rfl
theorem Lengths.ldrbStore (disp : Word) (s : Reg) : Lengths.Statement (.ldrbStore disp s) := by
  exact lengths_of rfl
theorem Lengths.ldrlStore (disp : Word) (s : Reg) : Lengths.Statement (.ldrlStore disp s) := by
  exact lengths_of rfl
theorem Lengths.pop (dst : Dst) (sp : Reg) : Lengths.Statement (.pop dst sp) := by
  rcases dst with _ | (_ | _ | _) <;> exact lengths_of rfl
theorem Lengths.popl (dst : Dst) (sp : Reg) : Lengths.Statement (.popl dst sp) := by
  rcases dst with _ | (_ | _ | _) <;> exact lengths_of rfl
theorem Lengths.pushw (sp : Reg) (src : Src .w) : Lengths.Statement (.pushw sp src) := by
  rcases src with _ | _ | (_ | _ | _) <;> exact lengths_of rfl
theorem Lengths.pushl (sp : Reg) (src : Dst) : Lengths.Statement (.pushl sp src) := by
  rcases src with _ | (_ | _ | _) <;> exact lengths_of rfl
theorem Lengths.adc (d : Reg) (s : Reg) : Lengths.Statement (.adc d s) := by
  exact lengths_of rfl
theorem Lengths.adcb (d : Reg) (s : Reg) : Lengths.Statement (.adcb d s) := by
  exact lengths_of rfl
theorem Lengths.sbc (d : Reg) (s : Reg) : Lengths.Statement (.sbc d s) := by
  exact lengths_of rfl
theorem Lengths.sbcb (d : Reg) (s : Reg) : Lengths.Statement (.sbcb d s) := by
  exact lengths_of rfl
theorem Lengths.add (d : Reg) (src : Src .w) : Lengths.Statement (.add d src) := by
  rcases src with _ | _ | (_ | _ | _) <;> exact lengths_of rfl
theorem Lengths.addb (d : Reg) (src : Src .b) : Lengths.Statement (.addb d src) := by
  rcases src with _ | _ | (_ | _ | _) <;> exact lengths_of rfl
theorem Lengths.addl (d : Reg) (src : Src .l) : Lengths.Statement (.addl d src) := by
  rcases src with _ | _ | (_ | _ | _) <;> exact lengths_of rfl
theorem Lengths.cp (d : Reg) (src : Src .w) : Lengths.Statement (.cp d src) := by
  rcases src with _ | _ | (_ | _ | _) <;> exact lengths_of rfl
theorem Lengths.cpb (d : Reg) (src : Src .b) : Lengths.Statement (.cpb d src) := by
  rcases src with _ | _ | (_ | _ | _) <;> exact lengths_of rfl
theorem Lengths.cpl (d : Reg) (src : Src .l) : Lengths.Statement (.cpl d src) := by
  rcases src with _ | _ | (_ | _ | _) <;> exact lengths_of rfl
theorem Lengths.sub (d : Reg) (src : Src .w) : Lengths.Statement (.sub d src) := by
  rcases src with _ | _ | (_ | _ | _) <;> exact lengths_of rfl
theorem Lengths.subb (d : Reg) (src : Src .b) : Lengths.Statement (.subb d src) := by
  rcases src with _ | _ | (_ | _ | _) <;> exact lengths_of rfl
theorem Lengths.subl (d : Reg) (src : Src .l) : Lengths.Statement (.subl d src) := by
  rcases src with _ | _ | (_ | _ | _) <;> exact lengths_of rfl
theorem Lengths.cpImm (dst : Mem) (data : Word) : Lengths.Statement (.cpImm dst data) := by
  rcases dst with _ | _ | _ <;> exact lengths_of rfl
theorem Lengths.cpbImm (dst : Mem) (data : Byte) : Lengths.Statement (.cpbImm dst data) := by
  rcases dst with _ | _ | _ <;> exact lengths_of rfl
theorem Lengths.dab (d : Reg) : Lengths.Statement (.dab d) := by
  exact lengths_of rfl
theorem Lengths.dec (dst : Dst) (n : BitVec 4) : Lengths.Statement (.dec dst n) := by
  rcases dst with _ | (_ | _ | _) <;> exact lengths_of rfl
theorem Lengths.decb (dst : Dst) (n : BitVec 4) : Lengths.Statement (.decb dst n) := by
  rcases dst with _ | (_ | _ | _) <;> exact lengths_of rfl
theorem Lengths.inc (dst : Dst) (n : BitVec 4) : Lengths.Statement (.inc dst n) := by
  rcases dst with _ | (_ | _ | _) <;> exact lengths_of rfl
theorem Lengths.incb (dst : Dst) (n : BitVec 4) : Lengths.Statement (.incb dst n) := by
  rcases dst with _ | (_ | _ | _) <;> exact lengths_of rfl
theorem Lengths.div (d : Reg) (src : Src .w) : Lengths.Statement (.div d src) := by
  rcases src with _ | _ | (_ | _ | _) <;> exact lengths_of rfl
theorem Lengths.divl (d : Reg) (src : Src .l) : Lengths.Statement (.divl d src) := by
  rcases src with _ | _ | (_ | _ | _) <;> exact lengths_of rfl
theorem Lengths.mult (d : Reg) (src : Src .w) : Lengths.Statement (.mult d src) := by
  rcases src with _ | _ | (_ | _ | _) <;> exact lengths_of rfl
theorem Lengths.multl (d : Reg) (src : Src .l) : Lengths.Statement (.multl d src) := by
  rcases src with _ | _ | (_ | _ | _) <;> exact lengths_of rfl
theorem Lengths.extsb (d : Reg) : Lengths.Statement (.extsb d) := by
  exact lengths_of rfl
theorem Lengths.exts (d : Reg) : Lengths.Statement (.exts d) := by
  exact lengths_of rfl
theorem Lengths.extsl (d : Reg) : Lengths.Statement (.extsl d) := by
  exact lengths_of rfl
theorem Lengths.neg (dst : Dst) : Lengths.Statement (.neg dst) := by
  rcases dst with _ | (_ | _ | _) <;> exact lengths_of rfl
theorem Lengths.negb (dst : Dst) : Lengths.Statement (.negb dst) := by
  rcases dst with _ | (_ | _ | _) <;> exact lengths_of rfl
theorem Lengths.and (d : Reg) (src : Src .w) : Lengths.Statement (.and d src) := by
  rcases src with _ | _ | (_ | _ | _) <;> exact lengths_of rfl
theorem Lengths.andb (d : Reg) (src : Src .b) : Lengths.Statement (.andb d src) := by
  rcases src with _ | _ | (_ | _ | _) <;> exact lengths_of rfl
theorem Lengths.or (d : Reg) (src : Src .w) : Lengths.Statement (.or d src) := by
  rcases src with _ | _ | (_ | _ | _) <;> exact lengths_of rfl
theorem Lengths.orb (d : Reg) (src : Src .b) : Lengths.Statement (.orb d src) := by
  rcases src with _ | _ | (_ | _ | _) <;> exact lengths_of rfl
theorem Lengths.xor (d : Reg) (src : Src .w) : Lengths.Statement (.xor d src) := by
  rcases src with _ | _ | (_ | _ | _) <;> exact lengths_of rfl
theorem Lengths.xorb (d : Reg) (src : Src .b) : Lengths.Statement (.xorb d src) := by
  rcases src with _ | _ | (_ | _ | _) <;> exact lengths_of rfl
theorem Lengths.com (dst : Dst) : Lengths.Statement (.com dst) := by
  rcases dst with _ | (_ | _ | _) <;> exact lengths_of rfl
theorem Lengths.comb (dst : Dst) : Lengths.Statement (.comb dst) := by
  rcases dst with _ | (_ | _ | _) <;> exact lengths_of rfl
theorem Lengths.test (dst : Dst) : Lengths.Statement (.test dst) := by
  rcases dst with _ | (_ | _ | _) <;> exact lengths_of rfl
theorem Lengths.testb (dst : Dst) : Lengths.Statement (.testb dst) := by
  rcases dst with _ | (_ | _ | _) <;> exact lengths_of rfl
theorem Lengths.testl (dst : Dst) : Lengths.Statement (.testl dst) := by
  rcases dst with _ | (_ | _ | _) <;> exact lengths_of rfl
theorem Lengths.tcc (cc : Cond) (d : Reg) : Lengths.Statement (.tcc cc d) := by
  exact lengths_of rfl
theorem Lengths.tccb (cc : Cond) (d : Reg) : Lengths.Statement (.tccb cc d) := by
  exact lengths_of rfl
theorem Lengths.bit (dst : Dst) (n : BitVec 4) : Lengths.Statement (.bit dst n) := by
  rcases dst with _ | (_ | _ | _) <;> exact lengths_of rfl
theorem Lengths.bitb (dst : Dst) (n : BitVec 3) : Lengths.Statement (.bitb dst n) := by
  rcases dst with _ | (_ | _ | _) <;> exact lengths_of rfl
theorem Lengths.bitDyn (d : Reg) (s : Reg) : Lengths.Statement (.bitDyn d s) := by
  exact lengths_of rfl
theorem Lengths.bitbDyn (d : Reg) (s : Reg) : Lengths.Statement (.bitbDyn d s) := by
  exact lengths_of rfl
theorem Lengths.resBit (dst : Dst) (n : BitVec 4) : Lengths.Statement (.resBit dst n) := by
  rcases dst with _ | (_ | _ | _) <;> exact lengths_of rfl
theorem Lengths.resBitB (dst : Dst) (n : BitVec 3) : Lengths.Statement (.resBitB dst n) := by
  rcases dst with _ | (_ | _ | _) <;> exact lengths_of rfl
theorem Lengths.resBitDyn (d : Reg) (s : Reg) : Lengths.Statement (.resBitDyn d s) := by
  exact lengths_of rfl
theorem Lengths.resBitBDyn (d : Reg) (s : Reg) : Lengths.Statement (.resBitBDyn d s) := by
  exact lengths_of rfl
theorem Lengths.setBit (dst : Dst) (n : BitVec 4) : Lengths.Statement (.setBit dst n) := by
  rcases dst with _ | (_ | _ | _) <;> exact lengths_of rfl
theorem Lengths.setBitB (dst : Dst) (n : BitVec 3) : Lengths.Statement (.setBitB dst n) := by
  rcases dst with _ | (_ | _ | _) <;> exact lengths_of rfl
theorem Lengths.setBitDyn (d : Reg) (s : Reg) : Lengths.Statement (.setBitDyn d s) := by
  exact lengths_of rfl
theorem Lengths.setBitBDyn (d : Reg) (s : Reg) : Lengths.Statement (.setBitBDyn d s) := by
  exact lengths_of rfl
theorem Lengths.tset (dst : Dst) : Lengths.Statement (.tset dst) := by
  rcases dst with _ | (_ | _ | _) <;> exact lengths_of rfl
theorem Lengths.tsetb (dst : Dst) : Lengths.Statement (.tsetb dst) := by
  rcases dst with _ | (_ | _ | _) <;> exact lengths_of rfl
theorem Lengths.rl (d : Reg) (two : Bool) : Lengths.Statement (.rl d two) := by
  exact lengths_of rfl
theorem Lengths.rlb (d : Reg) (two : Bool) : Lengths.Statement (.rlb d two) := by
  exact lengths_of rfl
theorem Lengths.rlc (d : Reg) (two : Bool) : Lengths.Statement (.rlc d two) := by
  exact lengths_of rfl
theorem Lengths.rlcb (d : Reg) (two : Bool) : Lengths.Statement (.rlcb d two) := by
  exact lengths_of rfl
theorem Lengths.rr (d : Reg) (two : Bool) : Lengths.Statement (.rr d two) := by
  exact lengths_of rfl
theorem Lengths.rrb (d : Reg) (two : Bool) : Lengths.Statement (.rrb d two) := by
  exact lengths_of rfl
theorem Lengths.rrc (d : Reg) (two : Bool) : Lengths.Statement (.rrc d two) := by
  exact lengths_of rfl
theorem Lengths.rrcb (d : Reg) (two : Bool) : Lengths.Statement (.rrcb d two) := by
  exact lengths_of rfl
theorem Lengths.rldb (d : Reg) (s : Reg) : Lengths.Statement (.rldb d s) := by
  exact lengths_of rfl
theorem Lengths.rrdb (d : Reg) (s : Reg) : Lengths.Statement (.rrdb d s) := by
  exact lengths_of rfl
theorem Lengths.sda (d : Reg) (s : Reg) : Lengths.Statement (.sda d s) := by
  exact lengths_of rfl
theorem Lengths.sdab (d : Reg) (s : Reg) : Lengths.Statement (.sdab d s) := by
  exact lengths_of rfl
theorem Lengths.sdal (d : Reg) (s : Reg) : Lengths.Statement (.sdal d s) := by
  exact lengths_of rfl
theorem Lengths.sdl (d : Reg) (s : Reg) : Lengths.Statement (.sdl d s) := by
  exact lengths_of rfl
theorem Lengths.sdlb (d : Reg) (s : Reg) : Lengths.Statement (.sdlb d s) := by
  exact lengths_of rfl
theorem Lengths.sdll (d : Reg) (s : Reg) : Lengths.Statement (.sdll d s) := by
  exact lengths_of rfl
theorem Lengths.sla (d : Reg) (q : BitVec 15) : Lengths.Statement (.sla d q) := by
  exact lengths_of rfl
theorem Lengths.slab (d : Reg) (q : BitVec 7) : Lengths.Statement (.slab d q) := by
  exact lengths_of rfl
theorem Lengths.slal (d : Reg) (q : BitVec 15) : Lengths.Statement (.slal d q) := by
  exact lengths_of rfl
theorem Lengths.sll (d : Reg) (q : BitVec 15) : Lengths.Statement (.sll d q) := by
  exact lengths_of rfl
theorem Lengths.sllb (d : Reg) (q : BitVec 7) : Lengths.Statement (.sllb d q) := by
  exact lengths_of rfl
theorem Lengths.slll (d : Reg) (q : BitVec 15) : Lengths.Statement (.slll d q) := by
  exact lengths_of rfl
theorem Lengths.sra (d : Reg) (q : BitVec 15) : Lengths.Statement (.sra d q) := by
  exact lengths_of rfl
theorem Lengths.srab (d : Reg) (q : BitVec 7) : Lengths.Statement (.srab d q) := by
  exact lengths_of rfl
theorem Lengths.sral (d : Reg) (q : BitVec 15) : Lengths.Statement (.sral d q) := by
  exact lengths_of rfl
theorem Lengths.srl (d : Reg) (q : BitVec 15) : Lengths.Statement (.srl d q) := by
  exact lengths_of rfl
theorem Lengths.srlb (d : Reg) (q : BitVec 7) : Lengths.Statement (.srlb d q) := by
  exact lengths_of rfl
theorem Lengths.srll (d : Reg) (q : BitVec 15) : Lengths.Statement (.srll d q) := by
  exact lengths_of rfl
theorem Lengths.call (dst : Mem) : Lengths.Statement (.call dst) := by
  rcases dst with _ | _ | _ <;> exact lengths_of rfl
theorem Lengths.calr (e : BitVec 12) : Lengths.Statement (.calr e) := by
  exact lengths_of rfl
theorem Lengths.djnz (r : Reg) (e : BitVec 7) : Lengths.Statement (.djnz r e) := by
  exact lengths_of rfl
theorem Lengths.dbjnz (r : Reg) (e : BitVec 7) : Lengths.Statement (.dbjnz r e) := by
  exact lengths_of rfl
theorem Lengths.jp (cc : Cond) (dst : Mem) : Lengths.Statement (.jp cc dst) := by
  rcases dst with _ | _ | _ <;> exact lengths_of rfl
theorem Lengths.jr (cc : Cond) (e : BitVec 8) : Lengths.Statement (.jr cc e) := by
  exact lengths_of rfl
theorem Lengths.ret (cc : Cond) : Lengths.Statement (.ret cc) := by
  exact lengths_of rfl
theorem Lengths.cpd (d : Reg) (s : Reg) (r : Reg) (cc : Cond) : Lengths.Statement (.cpd d s r cc) := by
  exact lengths_of rfl
theorem Lengths.cpdb (d : Reg) (s : Reg) (r : Reg) (cc : Cond) : Lengths.Statement (.cpdb d s r cc) := by
  exact lengths_of rfl
theorem Lengths.cpdr (d : Reg) (s : Reg) (r : Reg) (cc : Cond) : Lengths.Statement (.cpdr d s r cc) := by
  exact lengths_of rfl
theorem Lengths.cpdrb (d : Reg) (s : Reg) (r : Reg) (cc : Cond) : Lengths.Statement (.cpdrb d s r cc) := by
  exact lengths_of rfl
theorem Lengths.cpi (d : Reg) (s : Reg) (r : Reg) (cc : Cond) : Lengths.Statement (.cpi d s r cc) := by
  exact lengths_of rfl
theorem Lengths.cpib (d : Reg) (s : Reg) (r : Reg) (cc : Cond) : Lengths.Statement (.cpib d s r cc) := by
  exact lengths_of rfl
theorem Lengths.cpir (d : Reg) (s : Reg) (r : Reg) (cc : Cond) : Lengths.Statement (.cpir d s r cc) := by
  exact lengths_of rfl
theorem Lengths.cpirb (d : Reg) (s : Reg) (r : Reg) (cc : Cond) : Lengths.Statement (.cpirb d s r cc) := by
  exact lengths_of rfl
theorem Lengths.cpsd (d : Reg) (s : Reg) (r : Reg) (cc : Cond) : Lengths.Statement (.cpsd d s r cc) := by
  exact lengths_of rfl
theorem Lengths.cpsdb (d : Reg) (s : Reg) (r : Reg) (cc : Cond) : Lengths.Statement (.cpsdb d s r cc) := by
  exact lengths_of rfl
theorem Lengths.cpsdr (d : Reg) (s : Reg) (r : Reg) (cc : Cond) : Lengths.Statement (.cpsdr d s r cc) := by
  exact lengths_of rfl
theorem Lengths.cpsdrb (d : Reg) (s : Reg) (r : Reg) (cc : Cond) : Lengths.Statement (.cpsdrb d s r cc) := by
  exact lengths_of rfl
theorem Lengths.cpsi (d : Reg) (s : Reg) (r : Reg) (cc : Cond) : Lengths.Statement (.cpsi d s r cc) := by
  exact lengths_of rfl
theorem Lengths.cpsib (d : Reg) (s : Reg) (r : Reg) (cc : Cond) : Lengths.Statement (.cpsib d s r cc) := by
  exact lengths_of rfl
theorem Lengths.cpsir (d : Reg) (s : Reg) (r : Reg) (cc : Cond) : Lengths.Statement (.cpsir d s r cc) := by
  exact lengths_of rfl
theorem Lengths.cpsirb (d : Reg) (s : Reg) (r : Reg) (cc : Cond) : Lengths.Statement (.cpsirb d s r cc) := by
  exact lengths_of rfl
theorem Lengths.ldd (d : Reg) (s : Reg) (r : Reg) : Lengths.Statement (.ldd d s r) := by
  exact lengths_of rfl
theorem Lengths.lddb (d : Reg) (s : Reg) (r : Reg) : Lengths.Statement (.lddb d s r) := by
  exact lengths_of rfl
theorem Lengths.lddr (d : Reg) (s : Reg) (r : Reg) (cc : Cond) : Lengths.Statement (.lddr d s r cc) := by
  exact lengths_of rfl
theorem Lengths.lddrb (d : Reg) (s : Reg) (r : Reg) (cc : Cond) : Lengths.Statement (.lddrb d s r cc) := by
  exact lengths_of rfl
theorem Lengths.ldi (d : Reg) (s : Reg) (r : Reg) : Lengths.Statement (.ldi d s r) := by
  exact lengths_of rfl
theorem Lengths.ldib (d : Reg) (s : Reg) (r : Reg) : Lengths.Statement (.ldib d s r) := by
  exact lengths_of rfl
theorem Lengths.ldir (d : Reg) (s : Reg) (r : Reg) (cc : Cond) : Lengths.Statement (.ldir d s r cc) := by
  exact lengths_of rfl
theorem Lengths.ldirb (d : Reg) (s : Reg) (r : Reg) (cc : Cond) : Lengths.Statement (.ldirb d s r cc) := by
  exact lengths_of rfl
theorem Lengths.trdb (d : Reg) (s : Reg) (r : Reg) : Lengths.Statement (.trdb d s r) := by
  exact lengths_of rfl
theorem Lengths.trdrb (d : Reg) (s : Reg) (r : Reg) : Lengths.Statement (.trdrb d s r) := by
  exact lengths_of rfl
theorem Lengths.trib (d : Reg) (s : Reg) (r : Reg) : Lengths.Statement (.trib d s r) := by
  exact lengths_of rfl
theorem Lengths.trirb (d : Reg) (s : Reg) (r : Reg) : Lengths.Statement (.trirb d s r) := by
  exact lengths_of rfl
theorem Lengths.trtdb (d : Reg) (s : Reg) (r : Reg) : Lengths.Statement (.trtdb d s r) := by
  exact lengths_of rfl
theorem Lengths.trtdrb (d : Reg) (s : Reg) (r : Reg) : Lengths.Statement (.trtdrb d s r) := by
  exact lengths_of rfl
theorem Lengths.trtib (d : Reg) (s : Reg) (r : Reg) : Lengths.Statement (.trtib d s r) := by
  exact lengths_of rfl
theorem Lengths.trtirb (d : Reg) (s : Reg) (r : Reg) : Lengths.Statement (.trtirb d s r) := by
  exact lengths_of rfl
theorem Lengths.inp (d : Reg) (src : PortForm) : Lengths.Statement (.inp d src) := by
  rcases src with _ | _ <;> exact lengths_of rfl
theorem Lengths.inpb (d : Reg) (src : PortForm) : Lengths.Statement (.inpb d src) := by
  rcases src with _ | _ <;> exact lengths_of rfl
theorem Lengths.sin (d : Reg) (port : Word) : Lengths.Statement (.sin d port) := by
  exact lengths_of rfl
theorem Lengths.sinb (d : Reg) (port : Word) : Lengths.Statement (.sinb d port) := by
  exact lengths_of rfl
theorem Lengths.ind (d : Reg) (s : Reg) (r : Reg) : Lengths.Statement (.ind d s r) := by
  exact lengths_of rfl
theorem Lengths.indb (d : Reg) (s : Reg) (r : Reg) : Lengths.Statement (.indb d s r) := by
  exact lengths_of rfl
theorem Lengths.sind (d : Reg) (s : Reg) (r : Reg) : Lengths.Statement (.sind d s r) := by
  exact lengths_of rfl
theorem Lengths.sindb (d : Reg) (s : Reg) (r : Reg) : Lengths.Statement (.sindb d s r) := by
  exact lengths_of rfl
theorem Lengths.indr (d : Reg) (s : Reg) (r : Reg) (cc : Cond) : Lengths.Statement (.indr d s r cc) := by
  exact lengths_of rfl
theorem Lengths.indrb (d : Reg) (s : Reg) (r : Reg) (cc : Cond) : Lengths.Statement (.indrb d s r cc) := by
  exact lengths_of rfl
theorem Lengths.sindr (d : Reg) (s : Reg) (r : Reg) (cc : Cond) : Lengths.Statement (.sindr d s r cc) := by
  exact lengths_of rfl
theorem Lengths.sindrb (d : Reg) (s : Reg) (r : Reg) (cc : Cond) : Lengths.Statement (.sindrb d s r cc) := by
  exact lengths_of rfl
theorem Lengths.ini (d : Reg) (s : Reg) (r : Reg) : Lengths.Statement (.ini d s r) := by
  exact lengths_of rfl
theorem Lengths.inib (d : Reg) (s : Reg) (r : Reg) : Lengths.Statement (.inib d s r) := by
  exact lengths_of rfl
theorem Lengths.sini (d : Reg) (s : Reg) (r : Reg) : Lengths.Statement (.sini d s r) := by
  exact lengths_of rfl
theorem Lengths.sinib (d : Reg) (s : Reg) (r : Reg) : Lengths.Statement (.sinib d s r) := by
  exact lengths_of rfl
theorem Lengths.inir (d : Reg) (s : Reg) (r : Reg) (cc : Cond) : Lengths.Statement (.inir d s r cc) := by
  exact lengths_of rfl
theorem Lengths.inirb (d : Reg) (s : Reg) (r : Reg) (cc : Cond) : Lengths.Statement (.inirb d s r cc) := by
  exact lengths_of rfl
theorem Lengths.sinir (d : Reg) (s : Reg) (r : Reg) (cc : Cond) : Lengths.Statement (.sinir d s r cc) := by
  exact lengths_of rfl
theorem Lengths.sinirb (d : Reg) (s : Reg) (r : Reg) (cc : Cond) : Lengths.Statement (.sinirb d s r cc) := by
  exact lengths_of rfl
theorem Lengths.outp (dst : PortForm) (s : Reg) : Lengths.Statement (.outp dst s) := by
  rcases dst with _ | _ <;> exact lengths_of rfl
theorem Lengths.outpb (dst : PortForm) (s : Reg) : Lengths.Statement (.outpb dst s) := by
  rcases dst with _ | _ <;> exact lengths_of rfl
theorem Lengths.sout (port : Word) (s : Reg) : Lengths.Statement (.sout port s) := by
  exact lengths_of rfl
theorem Lengths.soutb (port : Word) (s : Reg) : Lengths.Statement (.soutb port s) := by
  exact lengths_of rfl
theorem Lengths.outd (d : Reg) (s : Reg) (r : Reg) : Lengths.Statement (.outd d s r) := by
  exact lengths_of rfl
theorem Lengths.outdb (d : Reg) (s : Reg) (r : Reg) : Lengths.Statement (.outdb d s r) := by
  exact lengths_of rfl
theorem Lengths.soutd (d : Reg) (s : Reg) (r : Reg) : Lengths.Statement (.soutd d s r) := by
  exact lengths_of rfl
theorem Lengths.soutdb (d : Reg) (s : Reg) (r : Reg) : Lengths.Statement (.soutdb d s r) := by
  exact lengths_of rfl
theorem Lengths.otdr (d : Reg) (s : Reg) (r : Reg) (cc : Cond) : Lengths.Statement (.otdr d s r cc) := by
  exact lengths_of rfl
theorem Lengths.otdrb (d : Reg) (s : Reg) (r : Reg) (cc : Cond) : Lengths.Statement (.otdrb d s r cc) := by
  exact lengths_of rfl
theorem Lengths.sotdr (d : Reg) (s : Reg) (r : Reg) (cc : Cond) : Lengths.Statement (.sotdr d s r cc) := by
  exact lengths_of rfl
theorem Lengths.sotdrb (d : Reg) (s : Reg) (r : Reg) (cc : Cond) : Lengths.Statement (.sotdrb d s r cc) := by
  exact lengths_of rfl
theorem Lengths.outi (d : Reg) (s : Reg) (r : Reg) : Lengths.Statement (.outi d s r) := by
  exact lengths_of rfl
theorem Lengths.outib (d : Reg) (s : Reg) (r : Reg) : Lengths.Statement (.outib d s r) := by
  exact lengths_of rfl
theorem Lengths.souti (d : Reg) (s : Reg) (r : Reg) : Lengths.Statement (.souti d s r) := by
  exact lengths_of rfl
theorem Lengths.soutib (d : Reg) (s : Reg) (r : Reg) : Lengths.Statement (.soutib d s r) := by
  exact lengths_of rfl
theorem Lengths.otir (d : Reg) (s : Reg) (r : Reg) (cc : Cond) : Lengths.Statement (.otir d s r cc) := by
  exact lengths_of rfl
theorem Lengths.otirb (d : Reg) (s : Reg) (r : Reg) (cc : Cond) : Lengths.Statement (.otirb d s r cc) := by
  exact lengths_of rfl
theorem Lengths.sotir (d : Reg) (s : Reg) (r : Reg) (cc : Cond) : Lengths.Statement (.sotir d s r cc) := by
  exact lengths_of rfl
theorem Lengths.sotirb (d : Reg) (s : Reg) (r : Reg) (cc : Cond) : Lengths.Statement (.sotirb d s r cc) := by
  exact lengths_of rfl
theorem Lengths.comflg (f : BitVec 4) : Lengths.Statement (.comflg f) := by
  exact lengths_of rfl
theorem Lengths.resflg (f : BitVec 4) : Lengths.Statement (.resflg f) := by
  exact lengths_of rfl
theorem Lengths.setflg (f : BitVec 4) : Lengths.Statement (.setflg f) := by
  exact lengths_of rfl
theorem Lengths.nop : Lengths.Statement (.nop) := by
  exact lengths_of rfl
theorem Lengths.di (v : BitVec 2) : Lengths.Statement (.di v) := by
  exact lengths_of rfl
theorem Lengths.ei (v : BitVec 2) : Lengths.Statement (.ei v) := by
  exact lengths_of rfl
theorem Lengths.halt : Lengths.Statement (.halt) := by
  exact lengths_of rfl
theorem Lengths.iret : Lengths.Statement (.iret) := by
  exact lengths_of rfl
theorem Lengths.sc (src : Byte) : Lengths.Statement (.sc src) := by
  exact lengths_of rfl
theorem Lengths.ldctlTo (c : Ctl) (s : Reg) : Lengths.Statement (.ldctlTo c s) := by
  exact lengths_of rfl
theorem Lengths.ldctlFrom (d : Reg) (c : Ctl) : Lengths.Statement (.ldctlFrom d c) := by
  exact lengths_of rfl
theorem Lengths.ldctlbFrom (d : Reg) : Lengths.Statement (.ldctlbFrom d) := by
  exact lengths_of rfl
theorem Lengths.ldctlbTo (s : Reg) : Lengths.Statement (.ldctlbTo s) := by
  exact lengths_of rfl
theorem Lengths.ldps (src : Mem) : Lengths.Statement (.ldps src) := by
  rcases src with _ | _ | _ <;> exact lengths_of rfl
theorem Lengths.mset : Lengths.Statement (.mset) := by
  exact lengths_of rfl
theorem Lengths.mres : Lengths.Statement (.mres) := by
  exact lengths_of rfl
theorem Lengths.mbit : Lengths.Statement (.mbit) := by
  exact lengths_of rfl
theorem Lengths.mreq (d : Reg) : Lengths.Statement (.mreq d) := by
  exact lengths_of rfl
theorem Lengths.ldFromEpu (d : Reg) (w1 : BitVec 3) (id : BitVec 2) (hi : BitVec 4) (lo : BitVec 4) (n : BitVec 4) : Lengths.Statement (.ldFromEpu d w1 id hi lo n) := by
  exact lengths_of rfl
theorem Lengths.ldFromEpuMem (dst : Mem) (id : BitVec 2) (x : BitVec 12) (n : BitVec 4) : Lengths.Statement (.ldFromEpuMem dst id x n) := by
  rcases dst with _ | _ | _ <;> exact lengths_of rfl
theorem Lengths.ldToEpu (s : Reg) (w1 : BitVec 3) (id : BitVec 2) (hi : BitVec 4) (lo : BitVec 4) (n : BitVec 4) : Lengths.Statement (.ldToEpu s w1 id hi lo n) := by
  exact lengths_of rfl
theorem Lengths.ldToEpuMem (src : Mem) (id : BitVec 2) (x : BitVec 12) (n : BitVec 4) : Lengths.Statement (.ldToEpuMem src id x n) := by
  rcases src with _ | _ | _ <;> exact lengths_of rfl
theorem Lengths.ldbFcwEpu (w1 : BitVec 4) (id : BitVec 2) (hi : BitVec 4) (lo : BitVec 4) : Lengths.Statement (.ldbFcwEpu w1 id hi lo) := by
  exact lengths_of rfl
theorem Lengths.ldbEpuFcw (w1 : BitVec 4) (id : BitVec 2) (hi : BitVec 4) (lo : BitVec 4) : Lengths.Statement (.ldbEpuFcw w1 id hi lo) := by
  exact lengths_of rfl
theorem Lengths.epui (w1 : BitVec 4) (id : BitVec 2) (x : BitVec 12) (n : BitVec 4) : Lengths.Statement (.epui w1 id x n) := by
  exact lengths_of rfl

end Sys2Proof.Laws
end

