-- ==== Sys2Proof/Tests/Slice0.lean ====
section
/-! SUPPORT. Tests/Slice0.lean: tests whose expected results come from the spec (its encoding tables and the worked
vectors T30 to T60 of its files, named in each docstring), and for every obligation with hypotheses a state and operands
that meet them. -/

namespace Sys2Proof.Machine.Tests

set_option Elab.async false

/-! ### Helpers -/

/-- The machine after reset, at 0x0100, with FCW `k`, registers, and words of memory. -/
def start (k : Word) (regs : List (Reg × Word)) (words : List (Word × Word)) : State :=
  let s := regs.foldl (fun s x => s.setWord x.1 x.2) { State.reset with pc := 0x0100 }
  (words.foldl (fun s x => s.pokeWord .data x.1 x.2) s).setFcw (Fcw.ofWord Config.fcwBits k)

/-- The parameters of the full revision. -/
def fullRevision : Cfg := { Config.defaults with rev := .full }

/-- One step on the words `ws` placed at PC answers a next state with `p`. -/
def gives (o : Host.Outcome State Fault Refusal) (p : State → Bool) : Bool :=
  match o with
  | .next t => p t
  | .fault _ => false
  | .refused _ => false

def after (ws : List Word) (s : State) (p : State → Bool) : Bool := gives (step (placeWords ws s.pc s)) p

/-- The newest bus transaction is this port write. -/
def wrote (st : Status) (port lines : Word) (byte : Bool) (t : State) : Bool :=
  t.bus.head? == some (.transfer st t.fcw.sys false byte port lines)

/-- Every list of words is exactly one instruction, the one beside it. -/
def readsAll (l : List (List Word × Instr)) : Bool :=
  l.all fun x => match decodeWords x.1 with
    | .ok (i, []) => i == x.2
    | _ => false

/-- Every list of words is refused with this reason. -/
def refusesAll (e : DecodeError) (l : List (List Word)) : Bool :=
  l.all fun ws => match decodeWords ws with
    | .error e' => e' == e
    | .ok _ => false

theorem next_of_gives {o : Host.Outcome State Fault Refusal} {p : State → Bool} (h : gives o p = true) :
    ∃ t, o = .next t ∧ p t = true := by
  cases o with
  | next t => exact ⟨t, rfl, h⟩
  | fault r => cases h
  | refused r => cases h

theorem next_of_runs {o : Host.Outcome State Fault Refusal} (h : gives o (fun _ => true) = true) : ∃ t, o = .next t :=
  let ⟨t, e, _⟩ := next_of_gives h
  ⟨t, e⟩

/-! ### Well-formedness: each check refuses -/

theorem test_ill_register_zero : [Instr.ld 1 (.mem (.std (.ind 0))), .clr (.mem (.x 0x10 0)), .lda 1 (.x 0x10 0),
    .lda 1 (.ba 0 4), .ldb 1 (.mem (.bx 0 3)), .inp 1 (.ir 0), .pop (.reg 1) 0, .popl (.reg 2) 0, .pushw 0 (.reg 1),
    .pushl 0 (.reg 2), .ldi 0 2 3, .ldi 2 0 3, .cpi 2 0 3 .z, .add 1 (.mem (.ind 0)), .jp .t (.ind 0),
    .ldps (.ind 0)].all (fun i => !WellFormed i) = true := by
  decide +kernel
theorem test_ill_pair : [Instr.ldl 1 (.reg 2), .ldl 2 (.reg 1), .ldlStore (.std (.ind 2)) 3, .ldlImm 5 0, .ldrl 7 0,
    .ldrlStore 0 9, .addl 1 (.reg 2), .addl 2 (.reg 1), .popl (.reg 3) 6, .pushl 6 (.reg 3), .testl (.reg 1), .mult 1 (.imm 0),
    .div 3 (.imm 1), .exts 1, .slal 1 0, .sdal 1 2].all (fun i => !WellFormed i) = true := by
  decide +kernel
theorem test_ill_quadruple : [Instr.multl 2 (.imm 0), .divl 6 (.imm 1), .extsl 1].all (fun i => !WellFormed i) = true := by
  decide +kernel
theorem test_ill_overlap : [Instr.pop (.reg 2) 2, .pop (.mem (.ind 2)) 2, .pop (.mem (.x 0 2)) 2, .popl (.reg 2) 3,
    .mult 0 (.reg 1), .div 2 (.reg 2), .multl 0 (.reg 2), .divl 4 (.reg 4), .rldb 1 1, .rrdb 8 8, .ldi 2 2 3,
    .ldirb 2 3 3 .f, .cpi 4 2 4 .z, .cpib 10 2 3 .z, .cpsi 2 4 4 .z, .trib 2 2 3, .trtib 1 2 3, .trtib 2 1 3,
    .trtib 2 3 1, .ini 2 3 2].all (fun i => !WellFormed i) = true := by
  decide +kernel
theorem test_ill_call : [Instr.call (.ind 15), .call (.x 0x10 15)].all (fun i => !WellFormed i) = true := by decide
theorem test_ill_condition : [Instr.ldir 2 4 3 .z, .lddrb 2 4 3 .t, .inir 2 4 3 .ov, .otdrb 2 4 3 .t].all
    (fun i => !WellFormed i) = true := by
  decide

/-! ### Decoding: a word for every constructor, from the encoding tables -/

theorem test_decode_loads : readsAll
    [([0x4D08, 0x1234], .clr (.mem (.da 0x1234))), ([0x4C08, 0x1234], .clrb (.mem (.da 0x1234))),
      ([0x6D04, 0x1234], .ex 4 (.mem (.da 0x1234))), ([0x6C04, 0x1234], .exb 4 (.mem (.da 0x1234))),
      ([0x6104, 0x1234], .ld 4 (.mem (.std (.da 0x1234)))),
      ([0x6004, 0x1234], .ldb 4 (.mem (.std (.da 0x1234)))),
      ([0x5404, 0x1234], .ldl 4 (.mem (.std (.da 0x1234)))), ([0x6F08, 0x1234], .ldStore (.std (.da 0x1234)) 8),
      ([0x6E08, 0x1234], .ldbStore (.std (.da 0x1234)) 8), ([0x5D08, 0x1234], .ldlStore (.std (.da 0x1234)) 8),
      ([0x4D05, 0x1234, 0xABCD], .ldImm (.mem (.da 0x1234)) 0xABCD),
      ([0x4C05, 0x1234, 0x5A5A], .ldbImm (.mem (.da 0x1234)) 0x5A), ([0xC45A], .ldbImmCompact 4 0x5A),
      ([0x1404, 0x1111, 0x2222], .ldlImm 4 0x11112222), ([0x7604, 0x1234], .lda 4 (.da 0x1234)),
      ([0x3404, 0x0010], .ldar 4 0x0010), ([0xBD49], .ldk 4 9),
      ([0x5C01, 0x0403, 0x1234], .ldmLoad 4 (.da 0x1234) 3),
      ([0x5C09, 0x0803, 0x1234], .ldmStore (.da 0x1234) 8 3), ([0x3104, 0x0010], .ldr 4 0x0010),
      ([0x3004, 0x0010], .ldrb 4 0x0010), ([0x3504, 0x0010], .ldrl 4 0x0010),
      ([0x3308, 0x0010], .ldrStore 0x0010 8), ([0x3208, 0x0010], .ldrbStore 0x0010 8),
      ([0x3708, 0x0010], .ldrlStore 0x0010 8), ([0x5720, 0x1234], .pop (.mem (.da 0x1234)) 2),
      ([0x5520, 0x1234], .popl (.mem (.da 0x1234)) 2), ([0x0D69, 0xABCD], .pushw 6 (.imm 0xABCD)),
      ([0x5160, 0x1234], .pushl 6 (.mem (.da 0x1234)))] = true := by
  decide +kernel
theorem test_decode_arithmetic : readsAll
    [([0xB584], .adc 4 8), ([0xB484], .adcb 4 8), ([0xB784], .sbc 4 8), ([0xB684], .sbcb 4 8),
      ([0x0104, 0xABCD], .add 4 (.imm 0xABCD)), ([0x0004, 0x5A5A], .addb 4 (.imm 0x5A)),
      ([0x1604, 0x1111, 0x2222], .addl 4 (.imm 0x11112222)), ([0x0B04, 0xABCD], .cp 4 (.imm 0xABCD)),
      ([0x0A04, 0x5A5A], .cpb 4 (.imm 0x5A)), ([0x1004, 0x1111, 0x2222], .cpl 4 (.imm 0x11112222)),
      ([0x0304, 0xABCD], .sub 4 (.imm 0xABCD)), ([0x0204, 0x5A5A], .subb 4 (.imm 0x5A)),
      ([0x1204, 0x1111, 0x2222], .subl 4 (.imm 0x11112222)),
      ([0x4D01, 0x1234, 0xABCD], .cpImm (.da 0x1234) 0xABCD),
      ([0x4C01, 0x1234, 0x5A5A], .cpbImm (.da 0x1234) 0x5A), ([0xB040], .dab 4),
      ([0x6B03, 0x1234], .dec (.mem (.da 0x1234)) 3), ([0x6A03, 0x1234], .decb (.mem (.da 0x1234)) 3),
      ([0x6903, 0x1234], .inc (.mem (.da 0x1234)) 3), ([0x6803, 0x1234], .incb (.mem (.da 0x1234)) 3),
      ([0x1B04, 0xABCD], .div 4 (.imm 0xABCD)), ([0x1A04, 0x1111, 0x2222], .divl 4 (.imm 0x11112222)),
      ([0x1904, 0xABCD], .mult 4 (.imm 0xABCD)), ([0x1804, 0x1111, 0x2222], .multl 4 (.imm 0x11112222)),
      ([0xB140], .extsb 4), ([0xB14A], .exts 4), ([0xB147], .extsl 4),
      ([0x4D02, 0x1234], .neg (.mem (.da 0x1234))), ([0x4C02, 0x1234], .negb (.mem (.da 0x1234)))] = true := by
  decide +kernel
theorem test_decode_logic_and_bits : readsAll
    [([0x0704, 0xABCD], .and 4 (.imm 0xABCD)), ([0x0604, 0x5A5A], .andb 4 (.imm 0x5A)),
      ([0x0504, 0xABCD], .or 4 (.imm 0xABCD)), ([0x0404, 0x5A5A], .orb 4 (.imm 0x5A)),
      ([0x0904, 0xABCD], .xor 4 (.imm 0xABCD)), ([0x0804, 0x5A5A], .xorb 4 (.imm 0x5A)),
      ([0x4D00, 0x1234], .com (.mem (.da 0x1234))), ([0x4C00, 0x1234], .comb (.mem (.da 0x1234))),
      ([0x4D04, 0x1234], .test (.mem (.da 0x1234))), ([0x4C04, 0x1234], .testb (.mem (.da 0x1234))),
      ([0x5C08, 0x1234], .testl (.mem (.da 0x1234))), ([0xAF46], .tcc .z 4), ([0xAE46], .tccb .z 4),
      ([0x6705, 0x1234], .bit (.mem (.da 0x1234)) 5), ([0x6605, 0x1234], .bitb (.mem (.da 0x1234)) 5),
      ([0x2708, 0x0400], .bitDyn 4 8), ([0x2608, 0x0400], .bitbDyn 4 8),
      ([0x6305, 0x1234], .resBit (.mem (.da 0x1234)) 5), ([0x6205, 0x1234], .resBitB (.mem (.da 0x1234)) 5),
      ([0x2308, 0x0400], .resBitDyn 4 8), ([0x2208, 0x0400], .resBitBDyn 4 8),
      ([0x6505, 0x1234], .setBit (.mem (.da 0x1234)) 5), ([0x6405, 0x1234], .setBitB (.mem (.da 0x1234)) 5),
      ([0x2508, 0x0400], .setBitDyn 4 8), ([0x2408, 0x0400], .setBitBDyn 4 8),
      ([0x4D06, 0x1234], .tset (.mem (.da 0x1234))), ([0x4C06, 0x1234], .tsetb (.mem (.da 0x1234)))] = true := by
  decide +kernel
theorem test_decode_shifts_and_rotates : readsAll
    [([0xB340], .rl 4 false), ([0xB240], .rlb 4 false), ([0xB348], .rlc 4 false), ([0xB248], .rlcb 4 false),
      ([0xB344], .rr 4 false), ([0xB244], .rrb 4 false), ([0xB34C], .rrc 4 false), ([0xB24C], .rrcb 4 false),
      ([0xBE84], .rldb 4 8), ([0xBC84], .rrdb 4 8), ([0xB34B, 0x0800], .sda 4 8), ([0xB24B, 0x0800], .sdab 4 8),
      ([0xB34F, 0x0800], .sdal 4 8), ([0xB343, 0x0800], .sdl 4 8), ([0xB243, 0x0800], .sdlb 4 8),
      ([0xB347, 0x0800], .sdll 4 8), ([0xB349, 0x0003], .sla 4 3), ([0xB249, 0x0003], .slab 4 3),
      ([0xB34D, 0x0003], .slal 4 3), ([0xB341, 0x0003], .sll 4 3), ([0xB241, 0x0003], .sllb 4 3),
      ([0xB345, 0x0003], .slll 4 3), ([0xB349, 0xFFFD], .sra 4 0x7FFD), ([0xB249, 0x00FD], .srab 4 0x7D),
      ([0xB34D, 0xFFFD], .sral 4 0x7FFD), ([0xB341, 0xFFFD], .srl 4 0x7FFD), ([0xB241, 0x00FD], .srlb 4 0x7D),
      ([0xB345, 0xFFFD], .srll 4 0x7FFD)] = true := by
  decide +kernel
theorem test_decode_program_control : readsAll
    [([0x5F00, 0x1234], .call (.da 0x1234)), ([0xD002], .calr 2), ([0xF782], .djnz 7 2),
      ([0xF702], .dbjnz 7 2), ([0x5E06, 0x1234], .jp .z (.da 0x1234)), ([0xE602], .jr .z 2), ([0x9E06], .ret .z)] = true := by
  decide +kernel
theorem test_decode_block_and_string : readsAll
    [([0xBB28, 0x0746], .cpd 4 2 7 .z), ([0xBA28, 0x0746], .cpdb 4 2 7 .z), ([0xBB2C, 0x0746], .cpdr 4 2 7 .z),
      ([0xBA2C, 0x0746], .cpdrb 4 2 7 .z), ([0xBB20, 0x0746], .cpi 4 2 7 .z),
      ([0xBA20, 0x0746], .cpib 4 2 7 .z), ([0xBB24, 0x0746], .cpir 4 2 7 .z),
      ([0xBA24, 0x0746], .cpirb 4 2 7 .z), ([0xBB2A, 0x0766], .cpsd 6 2 7 .z),
      ([0xBA2A, 0x0766], .cpsdb 6 2 7 .z), ([0xBB2E, 0x0766], .cpsdr 6 2 7 .z),
      ([0xBA2E, 0x0766], .cpsdrb 6 2 7 .z), ([0xBB22, 0x0766], .cpsi 6 2 7 .z),
      ([0xBA22, 0x0766], .cpsib 6 2 7 .z), ([0xBB26, 0x0766], .cpsir 6 2 7 .z),
      ([0xBA26, 0x0766], .cpsirb 6 2 7 .z), ([0xBB29, 0x0768], .ldd 6 2 7), ([0xBA29, 0x0768], .lddb 6 2 7),
      ([0xBB29, 0x0760], .lddr 6 2 7 .f), ([0xBA29, 0x0760], .lddrb 6 2 7 .f), ([0xBB21, 0x0768], .ldi 6 2 7),
      ([0xBA21, 0x0768], .ldib 6 2 7), ([0xBB21, 0x0760], .ldir 6 2 7 .f), ([0xBA21, 0x0760], .ldirb 6 2 7 .f),
      ([0xB868, 0x0720], .trdb 6 2 7), ([0xB86C, 0x0720], .trdrb 6 2 7), ([0xB860, 0x0720], .trib 6 2 7),
      ([0xB864, 0x0720], .trirb 6 2 7), ([0xB86A, 0x0720], .trtdb 6 2 7), ([0xB86E, 0x0720], .trtdrb 6 2 7),
      ([0xB862, 0x0720], .trtib 6 2 7), ([0xB866, 0x0720], .trtirb 6 2 7)] = true := by
  decide +kernel
theorem test_decode_input_output : readsAll
    [([0x3B44, 0x0020], .inp 4 (.da 0x0020)), ([0x3A44, 0x0020], .inpb 4 (.da 0x0020)),
      ([0x3B45, 0x0020], .sin 4 0x0020), ([0x3A45, 0x0020], .sinb 4 0x0020), ([0x3B28, 0x0768], .ind 6 2 7),
      ([0x3A28, 0x0768], .indb 6 2 7), ([0x3B29, 0x0768], .sind 6 2 7), ([0x3A29, 0x0768], .sindb 6 2 7),
      ([0x3B28, 0x0760], .indr 6 2 7 .f), ([0x3A28, 0x0760], .indrb 6 2 7 .f),
      ([0x3B29, 0x0760], .sindr 6 2 7 .f), ([0x3A29, 0x0760], .sindrb 6 2 7 .f), ([0x3B20, 0x0768], .ini 6 2 7),
      ([0x3A20, 0x0768], .inib 6 2 7), ([0x3B21, 0x0768], .sini 6 2 7), ([0x3A21, 0x0768], .sinib 6 2 7),
      ([0x3B20, 0x0760], .inir 6 2 7 .f), ([0x3A20, 0x0760], .inirb 6 2 7 .f),
      ([0x3B21, 0x0760], .sinir 6 2 7 .f), ([0x3A21, 0x0760], .sinirb 6 2 7 .f),
      ([0x3B86, 0x0020], .outp (.da 0x0020) 8), ([0x3A86, 0x0020], .outpb (.da 0x0020) 8),
      ([0x3B87, 0x0020], .sout 0x0020 8), ([0x3A87, 0x0020], .soutb 0x0020 8), ([0x3B2A, 0x0768], .outd 6 2 7),
      ([0x3A2A, 0x0768], .outdb 6 2 7), ([0x3B2B, 0x0768], .soutd 6 2 7), ([0x3A2B, 0x0768], .soutdb 6 2 7),
      ([0x3B2A, 0x0760], .otdr 6 2 7 .f), ([0x3A2A, 0x0760], .otdrb 6 2 7 .f),
      ([0x3B2B, 0x0760], .sotdr 6 2 7 .f), ([0x3A2B, 0x0760], .sotdrb 6 2 7 .f),
      ([0x3B22, 0x0768], .outi 6 2 7), ([0x3A22, 0x0768], .outib 6 2 7), ([0x3B23, 0x0768], .souti 6 2 7),
      ([0x3A23, 0x0768], .soutib 6 2 7), ([0x3B22, 0x0760], .otir 6 2 7 .f),
      ([0x3A22, 0x0760], .otirb 6 2 7 .f), ([0x3B23, 0x0760], .sotir 6 2 7 .f),
      ([0x3A23, 0x0760], .sotirb 6 2 7 .f)] = true := by
  decide +kernel
theorem test_decode_cpu_control : readsAll
    [([0x8D95], .comflg 9), ([0x8D93], .resflg 9), ([0x8D91], .setflg 9), ([0x8D07], .nop), ([0x7C01], .di 1),
      ([0x7C05], .ei 1), ([0x7A00], .halt), ([0x7B00], .iret), ([0x7F24], .sc 0x24),
      ([0x7D8A], .ldctlTo .fcw 8), ([0x7D42], .ldctlFrom 4 .fcw), ([0x8C41], .ldctlbFrom 4),
      ([0x8C89], .ldctlbTo 8), ([0x7900, 0x1234], .ldps (.da 0x1234)), ([0x7B08], .mset), ([0x7B09], .mres),
      ([0x7B0A], .mbit), ([0x7B4D], .mreq 4)] = true := by
  decide +kernel
theorem test_decode_extended : readsAll
    [([0x8F31, 0x4453], .ldFromEpu 4 3 1 4 5 3),
      ([0x4F0D, 0xABC3, 0x1234], .ldFromEpuMem (.da 0x1234) 1 0xABC 3),
      ([0x8F3A, 0x4853], .ldToEpu 8 3 2 4 5 3), ([0x4F06, 0xABC3, 0x1234], .ldToEpuMem (.da 0x1234) 2 0xABC 3),
      ([0x8E91, 0x4050], .ldbFcwEpu 9 1 4 5), ([0x8E9A, 0x4050], .ldbEpuFcw 9 2 4 5),
      ([0x8E95, 0xABC3], .epui 9 1 0xABC 3)] = true := by
  decide +kernel
theorem test_decode_address_modes : readsAll
    [([0xA184], .ld 4 (.reg 8)), ([0x2124], .ld 4 (.mem (.std (.ind 2)))), ([0x6124, 0x1234], .ld 4 (.mem (.std (.x 0x1234 2)))),
      ([0x3124, 0x0010], .ld 4 (.mem (.ba 2 0x0010))), ([0x7124, 0x0500], .ld 4 (.mem (.bx 2 5))),
      ([0x2F68], .ldStore (.std (.ind 6)) 8), ([0x6F68, 0x1234], .ldStore (.std (.x 0x1234 6)) 8),
      ([0x3368, 0x0010], .ldStore (.ba 6 0x0010) 8), ([0x7368, 0x0500], .ldStore (.bx 6 5) 8),
      ([0x2104, 0xABCD], .ldImm (.reg 4) 0xABCD), ([0x0D65, 0xABCD], .ldImm (.mem (.ind 6)) 0xABCD),
      ([0x7624, 0x1234], .lda 4 (.x 0x1234 2)), ([0x3424, 0x0010], .lda 4 (.ba 2 0x0010)),
      ([0x7424, 0x0500], .lda 4 (.bx 2 5)), ([0x9724], .pop (.reg 4) 2), ([0x1726], .pop (.mem (.ind 6)) 2),
      ([0x9368], .pushw 6 (.reg 8)), ([0x1362], .pushw 6 (.mem (.ind 2))), ([0x3D24], .inp 4 (.ir 2)),
      ([0x3F68], .outp (.ir 6) 8), ([0x0F6D, 0xABC3], .ldFromEpuMem (.ind 6) 1 0xABC 3)] = true := by
  decide +kernel
/-- R118, R157: copies of a byte immediate that differ, the unused second-word bits, words of no table. -/
theorem test_decode_refusals : (refusesAll .unequalCopies [[0x2009, 0x127F]] &&
    refusesAll .trapped [[0x4D09], [0x7E00]] && refusesAll .undocumentedExtended [[0x8E0C, 0x0000]]) = true := by
  decide +kernel

/-! ### Steps: worked vectors of the spec -/

/-- T40.1. -/
theorem test_clr : after [0x8D38]
    (start 0x4000 [(3, 0xBEEF)] []) (fun t =>
      t.word 3 == 0x0000 && t.pc == 0x0102 && t.fcwWord == 0x4000) = true := by
  decide +kernel
/-- T40.3. -/
theorem test_ex_with_memory : after [0x2D21]
    (start 0x4000 [(1, 0x1111), (2, 0x2000)] [(0x2000, 0x2222)]) (fun t =>
      t.word 1 == 0x2222 && t.peekWord .data 0x2000 == 0x1111 && t.pc == 0x0102 && t.fcwWord == 0x4000) = true := by
  decide +kernel
/-- T40.4. -/
theorem test_exb_swaps_halves : after [0xAC80]
    (start 0x4000 [(0, 0x12AB)] []) (fun t =>
      t.word 0 == 0xAB12 && t.pc == 0x0102 && t.fcwWord == 0x4000) = true := by
  decide +kernel
/-- T40.6. -/
theorem test_ldl_indexed : after [0x5412, 0x0100]
    (start 0x4000 [(1, 0x0010)] [(0x0110, 0x1234), (0x0112, 0x5678)]) (fun t =>
      t.word 2 == 0x1234 && t.word 3 == 0x5678 && t.pc == 0x0104 && t.fcwWord == 0x4000) = true := by
  decide +kernel
/-- T40.7. -/
theorem test_ldb_base_index_sign : after [0x7048, 0x0500]
    (State.poke (start 0x4000 [(0, 0xFFFF), (4, 0x3000), (5, 0x0003)] []) .data 0x3003 0x5A) (fun t =>
      t.word 0 == 0xFF5A && t.pc == 0x0104 && t.fcwWord == 0x4000) = true := by
  decide +kernel
/-- T40.8. -/
theorem test_ld_store : after [0x2F47]
    (start 0x4000 [(4, 0x3000), (7, 0xABCD)] []) (fun t =>
      t.peekWord .data 0x3000 == 0xABCD && t.pc == 0x0102 && t.fcwWord == 0x4000) = true := by
  decide +kernel
/-- T40.9. -/
theorem test_ldl_store_based : after [0x37F0, 0x0004]
    (start 0x4000 [(15, 0x7000), (0, 0x0102), (1, 0x0304)] []) (fun t =>
      t.peekWord .data 0x7004 == 0x0102 && t.peekWord .data 0x7006 == 0x0304 && t.pc == 0x0104 && t.fcwWord
      == 0x4000) = true := by
  decide +kernel
/-- T40.13. -/
theorem test_ldl_immediate : after [0x1404, 0x1234, 0x5678]
    (start 0x4000 [] []) (fun t =>
      t.word 4 == 0x1234 && t.word 5 == 0x5678 && t.pc == 0x0106 && t.fcwWord == 0x4000) = true := by
  decide +kernel
/-- T40.15. -/
theorem test_lda_indexed : after [0x7621, 0x1000]
    (start 0x4000 [(2, 0x0234)] []) (fun t =>
      t.word 1 == 0x1234 && t.pc == 0x0104 && t.fcwWord == 0x4000) = true := by
  decide +kernel
/-- T40.17. -/
theorem test_ldar : after [0x3403, 0x00FC]
    (start 0x4000 [] []) (fun t =>
      t.word 3 == 0x0200 && t.pc == 0x0104 && t.fcwWord == 0x4000) = true := by
  decide +kernel
/-- T40.18. -/
theorem test_ldk : after [0xBD79]
    (start 0x4000 [] []) (fun t =>
      t.word 7 == 0x0009 && t.pc == 0x0102 && t.fcwWord == 0x4000) = true := by
  decide +kernel
/-- T40.19. -/
theorem test_ldm_wraps_registers : after [0x1C11, 0x0E03]
    (start 0x4000 [(1, 0x1000)] [(0x1000, 0x000A), (0x1002, 0x000B), (0x1004, 0x000C), (0x1006, 0x000D)]) (fun t =>
      t.word 0 == 0x000C && t.word 1 == 0x000D && t.word 14 == 0x000A && t.word 15 == 0x000B && t.pc == 0x0104
      && t.fcwWord == 0x4000) = true := by
  decide +kernel
/-- T40.20. -/
theorem test_ldm_store : after [0x1CF9, 0x0002]
    (start 0x4000 [(15, 0x8000), (0, 0x0001), (1, 0x0002), (2, 0x0003)] []) (fun t =>
      t.peekWord .data 0x8000 == 0x0001 && t.peekWord .data 0x8002 == 0x0002 && t.peekWord .data 0x8004 ==
      0x0003 && t.pc == 0x0104 && t.fcwWord == 0x4000) = true := by
  decide +kernel
/-- T40.21. -/
theorem test_ldr : after [0x3102, 0x00FC]
    { start 0x4000 [] [(0x0300, 0x7777)] with pc := 0x0200 } (fun t =>
      t.word 2 == 0x7777 && t.pc == 0x0204 && t.fcwWord == 0x4000) = true := by
  decide +kernel
/-- T40.22. -/
theorem test_ldrb_store : after [0x3208, 0x000C]
    { start 0x4000 [(0, 0x00EE)] [] with pc := 0x0200 } (fun t =>
      t.peek .data 0x0210 == 0xEE && t.pc == 0x0204 && t.fcwWord == 0x4000) = true := by
  decide +kernel
/-- T40.23. -/
theorem test_pop : after [0x97F3]
    (start 0x4000 [(15, 0x7FFE)] [(0x7FFE, 0x55AA)]) (fun t =>
      t.word 3 == 0x55AA && t.word 15 == 0x8000 && t.pc == 0x0102 && t.fcwWord == 0x4000) = true := by
  decide +kernel
/-- T40.25. -/
theorem test_pushl : after [0x91F2]
    (start 0x4000 [(2, 0x1111), (3, 0x2222), (15, 0x8000)] []) (fun t =>
      t.word 15 == 0x7FFC && t.peekWord .data 0x7FFC == 0x1111 && t.peekWord .data 0x7FFE == 0x2222 && t.pc ==
      0x0102 && t.fcwWord == 0x4000) = true := by
  decide +kernel
/-- T40.27. -/
theorem test_popl : after [0x9564]
    (start 0x4000 [(6, 0x5000)] [(0x5000, 0xDEAD), (0x5002, 0xBEEF)]) (fun t =>
      t.word 4 == 0xDEAD && t.word 5 == 0xBEEF && t.word 6 == 0x5004 && t.pc == 0x0102 && t.fcwWord == 0x4000) = true := by
  decide +kernel
/-- T40.28. -/
theorem test_ldb_odd_address : after [0x6002, 0x4001]
    (start 0x4000 [(2, 0x0000)] [(0x4000, 0x12EF)]) (fun t =>
      t.word 2 == 0xEF00 && t.pc == 0x0104 && t.fcwWord == 0x4000) = true := by
  decide +kernel
/-- T40.30. -/
theorem test_push_of_its_own_pointer : after [0x93FF]
    (start 0x4000 [(15, 0x8000)] []) (fun t =>
      t.word 15 == 0x7FFE && t.peekWord .data 0x7FFE == 0x8000 && t.pc == 0x0102 && t.fcwWord == 0x4000) = true := by
  decide +kernel
/-- T41.1. -/
theorem test_adc : after [0xB521]
    (start 0x4080 [(1, 0xFFFF), (2, 0x0000)] []) (fun t =>
      t.word 1 == 0x0000 && t.pc == 0x0102 && t.fcwWord == 0x40C0) = true := by
  decide +kernel
/-- T41.2. -/
theorem test_add_overflow : after [0x0101, 0x0010]
    (start 0x4000 [(1, 0x7FF8)] []) (fun t =>
      t.word 1 == 0x8008 && t.pc == 0x0104 && t.fcwWord == 0x4030) = true := by
  decide +kernel
/-- T41.3. -/
theorem test_addb_half_carry : after [0x8018]
    (start 0x4000 [(0, 0x0019), (1, 0x2800)] []) (fun t =>
      t.word 0 == 0x0041 && t.pc == 0x0102 && t.fcwWord == 0x4004) = true := by
  decide +kernel
/-- T41.4. -/
theorem test_addl_carry : after [0x9642]
    (start 0x4000 [(2, 0xFFFF), (3, 0xFFFF), (4, 0x0000), (5, 0x0001)] []) (fun t =>
      t.word 2 == 0x0000 && t.word 3 == 0x0000 && t.pc == 0x0102 && t.fcwWord == 0x40C0) = true := by
  decide +kernel
/-- T41.7. -/
theorem test_adcb_adds_carry : after [0xB480]
    (start 0x4080 [(0, 0x0F00)] []) (fun t =>
      t.word 0 == 0x1000 && t.pc == 0x0102 && t.fcwWord == 0x4004) = true := by
  decide +kernel
/-- T41.8. -/
theorem test_cp_borrow : after [0x8B21]
    (start 0x4000 [(1, 0x0001), (2, 0x0002)] []) (fun t =>
      t.pc == 0x0102 && t.fcwWord == 0x40A0) = true := by
  decide +kernel
/-- T41.10. -/
theorem test_cp_memory_immediate : after [0x0D21, 0x0005]
    (start 0x4000 [(2, 0x1000)] [(0x1000, 0x0005)]) (fun t =>
      t.pc == 0x0104 && t.fcwWord == 0x4040) = true := by
  decide +kernel
/-- T41.12. -/
theorem test_cpl : after [0x9020]
    (start 0x4000 [(0, 0x0000), (1, 0x0000), (2, 0x0000), (3, 0x0001)] []) (fun t =>
      t.pc == 0x0102 && t.fcwWord == 0x40A0) = true := by
  decide +kernel
/-- T41.14. -/
theorem test_decb_by_sixteen : after [0xAAAF]
    (start 0x4000 [(2, 0x0010)] []) (fun t =>
      t.word 2 == 0x0000 && t.pc == 0x0102 && t.fcwWord == 0x4040) = true := by
  decide +kernel
/-- T41.17. -/
theorem test_inc_leaves_carry : after [0xA91F]
    (start 0x4000 [(1, 0xFFF0)] []) (fun t =>
      t.word 1 == 0x0000 && t.pc == 0x0102 && t.fcwWord == 0x4040) = true := by
  decide +kernel
/-- T41.20. -/
theorem test_neg : after [0x8D12]
    (start 0x4000 [(1, 0x0001)] []) (fun t =>
      t.word 1 == 0xFFFF && t.pc == 0x0102 && t.fcwWord == 0x40A0) = true := by
  decide +kernel
/-- T41.24. -/
theorem test_sbc_borrow : after [0xB721]
    (start 0x4080 [(1, 0x0000), (2, 0x0000)] []) (fun t =>
      t.word 1 == 0xFFFF && t.pc == 0x0102 && t.fcwWord == 0x40A0) = true := by
  decide +kernel
/-- T41.26. -/
theorem test_subb_half_borrow : after [0x8218]
    (start 0x4000 [(0, 0x0042), (1, 0x1300)] []) (fun t =>
      t.word 0 == 0x002F && t.pc == 0x0102 && t.fcwWord == 0x400C) = true := by
  decide +kernel
/-- T41.28. -/
theorem test_subl_overflow : after [0x1202, 0x0000, 0x0001]
    (start 0x4000 [(2, 0x8000), (3, 0x0000)] []) (fun t =>
      t.word 2 == 0x7FFF && t.word 3 == 0xFFFF && t.pc == 0x0106 && t.fcwWord == 0x4010) = true := by
  decide +kernel
/-- T41.29. -/
theorem test_extsb : after [0xB110]
    (start 0x4000 [(1, 0x1280)] []) (fun t =>
      t.word 1 == 0xFF80 && t.pc == 0x0102 && t.fcwWord == 0x4000) = true := by
  decide +kernel
/-- T41.30. -/
theorem test_exts : after [0xB12A]
    (start 0x4000 [(2, 0xFFFF), (3, 0x7FFF)] []) (fun t =>
      t.word 2 == 0x0000 && t.pc == 0x0102 && t.fcwWord == 0x4000) = true := by
  decide +kernel
/-- T41.31. -/
theorem test_extsl : after [0xB147]
    (start 0x4000 [(4, 0x0000), (5, 0x0000), (6, 0x8000), (7, 0x0000)] []) (fun t =>
      t.word 4 == 0xFFFF && t.word 5 == 0xFFFF && t.pc == 0x0102 && t.fcwWord == 0x4000) = true := by
  decide +kernel
/-- T41.32. -/
theorem test_mult_negative : after [0x9920]
    (start 0x4000 [(0, 0x5555), (1, 0x0003), (2, 0xFFFE)] []) (fun t =>
      t.word 0 == 0xFFFF && t.word 1 == 0xFFFA && t.pc == 0x0102 && t.fcwWord == 0x4020) = true := by
  decide +kernel
/-- T41.33. -/
theorem test_mult_carry : after [0x9920]
    (start 0x4000 [(0, 0x0000), (1, 0x4000), (2, 0x0002)] []) (fun t =>
      t.word 1 == 0x8000 && t.pc == 0x0102 && t.fcwWord == 0x4080) = true := by
  decide +kernel
/-- T41.36. -/
theorem test_multl : after [0x9840]
    (start 0x4000 [(0, 0x0000), (1, 0x0000), (2, 0xFFFF), (3, 0xFFFF), (4, 0x0000), (5, 0x0002)] []) (fun t =>
      t.word 0 == 0xFFFF && t.word 1 == 0xFFFF && t.word 3 == 0xFFFE && t.pc == 0x0102 && t.fcwWord == 0x4020) = true := by
  decide +kernel
/-- T41.37. -/
theorem test_div : after [0x9B20]
    (start 0x4000 [(0, 0x0000), (1, 0x0007), (2, 0x0002)] []) (fun t =>
      t.word 0 == 0x0001 && t.word 1 == 0x0003 && t.pc == 0x0102 && t.fcwWord == 0x4000) = true := by
  decide +kernel
/-- T41.41. -/
theorem test_div_seventeen_bits : after [0x9B20]
    (start 0x4000 [(0, 0xFFFF), (1, 0x0001), (2, 0x0001)] []) (fun t =>
      t.word 0 == 0x0000 && t.pc == 0x0102 && t.fcwWord == 0x40B0) = true := by
  decide +kernel
/-- T41.45. -/
theorem test_divl_negative : after [0x9A40]
    (start 0x4000 [(0, 0x0000), (1, 0x0000), (2, 0x0000), (3, 0x0064), (4, 0xFFFF), (5, 0xFFF9)] []) (fun t =>
      t.word 1 == 0x0002 && t.word 2 == 0xFFFF && t.word 3 == 0xFFF2 && t.pc == 0x0102 && t.fcwWord == 0x4020) = true := by
  decide +kernel
/-- T41.50. -/
theorem test_dab_after_addition : after [0xB080]
    (start 0x4004 [(0, 0x0041)] []) (fun t =>
      t.word 0 == 0x0047 && t.pc == 0x0102 && t.fcwWord == 0x4004) = true := by
  decide +kernel
/-- T41.53. -/
theorem test_dab_after_subtraction : after [0xB080]
    (start 0x408C [(0, 0x00FF)] []) (fun t =>
      t.word 0 == 0x0099 && t.pc == 0x0102 && t.fcwWord == 0x40AC) = true := by
  decide +kernel
/-- T42.1. -/
theorem test_and_keeps_v : after [0x8721]
    (start 0x4090 [(1, 0xF0F0), (2, 0x0FF0)] []) (fun t =>
      t.word 1 == 0x00F0 && t.pc == 0x0102 && t.fcwWord == 0x4090) = true := by
  decide +kernel
/-- T42.2. -/
theorem test_andb_parity : after [0x0608, 0x0F0F]
    (start 0x4000 [(0, 0x0035)] []) (fun t =>
      t.word 0 == 0x0005 && t.pc == 0x0104 && t.fcwWord == 0x4010) = true := by
  decide +kernel
/-- T42.3. -/
theorem test_or_memory : after [0x0521]
    (start 0x4000 [(1, 0x8000), (2, 0x2000)] [(0x2000, 0x0001)]) (fun t =>
      t.word 1 == 0x8001 && t.pc == 0x0102 && t.fcwWord == 0x4020) = true := by
  decide +kernel
/-- T42.5. -/
theorem test_xorb : after [0x8888]
    (start 0x4000 [(0, 0x1234)] []) (fun t =>
      t.word 0 == 0x1200 && t.pc == 0x0102 && t.fcwWord == 0x4050) = true := by
  decide +kernel
/-- T42.8. -/
theorem test_comb_memory : after [0x0C20]
    (start 0x4000 [(2, 0x1001)] [(0x1000, 0xAAFF)]) (fun t =>
      t.peek .data 0x1001 == 0x00 && t.pc == 0x0102 && t.fcwWord == 0x4050) = true := by
  decide +kernel
/-- T42.10. -/
theorem test_testl : after [0x9C28]
    (start 0x4020 [(2, 0x0000), (3, 0x0000)] []) (fun t =>
      t.pc == 0x0102 && t.fcwWord == 0x4040) = true := by
  decide +kernel
/-- T42.12. -/
theorem test_tcc : after [0xAF16]
    (start 0x4040 [(1, 0x0000)] []) (fun t =>
      t.word 1 == 0x0001 && t.pc == 0x0102 && t.fcwWord == 0x4040) = true := by
  decide +kernel
/-- T42.17. -/
theorem test_bit_dynamic : after [0x2702, 0x0100]
    (start 0x4040 [(1, 0x0010), (2, 0xFFF4)] []) (fun t =>
      t.pc == 0x0104 && t.fcwWord == 0x4000) = true := by
  decide +kernel
/-- T42.20. -/
theorem test_res_dynamic : after [0x2302, 0x0100]
    (start 0x4000 [(1, 0x00FF), (2, 0x0003)] []) (fun t =>
      t.word 1 == 0x00F7 && t.pc == 0x0104 && t.fcwWord == 0x4000) = true := by
  decide +kernel
/-- T42.22. -/
theorem test_setb_dynamic_byte_code : after [0x2403, 0x0900]
    (start 0x4000 [(1, 0x0000), (3, 0x000F)] []) (fun t =>
      t.word 1 == 0x0080 && t.pc == 0x0104 && t.fcwWord == 0x4000) = true := by
  decide +kernel
/-- T42.24. -/
theorem test_tset : after [0x0D26]
    (start 0x4020 [(2, 0x3000)] [(0x3000, 0x0000)]) (fun t =>
      t.peekWord .data 0x3000 == 0xFFFF && t.pc == 0x0102 && t.fcwWord == 0x4000) = true := by
  decide +kernel
/-- T43.1. -/
theorem test_rl : after [0xB310]
    (start 0x4000 [(1, 0x8001)] []) (fun t =>
      t.word 1 == 0x0003 && t.pc == 0x0102 && t.fcwWord == 0x4090) = true := by
  decide +kernel
/-- T43.2. -/
theorem test_rlb_two_overflow : after [0xB212]
    (start 0x4000 [(1, 0x4100)] []) (fun t =>
      t.word 1 == 0x0500 && t.pc == 0x0102 && t.fcwWord == 0x4090) = true := by
  decide +kernel
/-- T43.4. -/
theorem test_rlc_two : after [0xB31A]
    (start 0x4080 [(1, 0x4000)] []) (fun t =>
      t.word 1 == 0x0002 && t.pc == 0x0102 && t.fcwWord == 0x4090) = true := by
  decide +kernel
/-- T43.6. -/
theorem test_rr : after [0xB334]
    (start 0x4000 [(3, 0x0001)] []) (fun t =>
      t.word 3 == 0x8000 && t.pc == 0x0102 && t.fcwWord == 0x40B0) = true := by
  decide +kernel
/-- T43.8. -/
theorem test_rrcb : after [0xB28C]
    (start 0x4080 [(0, 0x0000)] []) (fun t =>
      t.word 0 == 0x0080 && t.pc == 0x0102 && t.fcwWord == 0x4030) = true := by
  decide +kernel
/-- T43.9. -/
theorem test_rldb : after [0xBE91]
    (start 0x4000 [(1, 0x1234)] []) (fun t =>
      t.word 1 == 0x1342 && t.pc == 0x0102 && t.fcwWord == 0x4000) = true := by
  decide +kernel
/-- T43.10. -/
theorem test_rrdb : after [0xBC91]
    (start 0x4000 [(1, 0x1234)] []) (fun t =>
      t.word 1 == 0x1423 && t.pc == 0x0102 && t.fcwWord == 0x4000) = true := by
  decide +kernel
/-- T43.12. -/
theorem test_sda_right : after [0xB31B, 0x0200]
    (start 0x4080 [(1, 0xFF00), (2, 0xFFFC)] []) (fun t =>
      t.word 1 == 0xFFF0 && t.pc == 0x0104 && t.fcwWord == 0x4020) = true := by
  decide +kernel
/-- T43.15. -/
theorem test_sdlb_right : after [0xB283, 0x0300]
    (start 0x4000 [(0, 0x0081), (3, 0xFFFF)] []) (fun t =>
      t.word 0 == 0x0040 && t.pc == 0x0104 && t.fcwWord == 0x4090) = true := by
  decide +kernel
/-- T43.19. -/
theorem test_sla : after [0xB319, 0x0004]
    (start 0x4080 [(1, 0x0123)] []) (fun t =>
      t.word 1 == 0x1230 && t.pc == 0x0104 && t.fcwWord == 0x4000) = true := by
  decide +kernel
/-- T43.25. -/
theorem test_sll_beyond_width : after [0xB341, 0x0011]
    (start 0x4000 [(4, 0x0001)] []) (fun t =>
      t.word 4 == 0x0000 && t.pc == 0x0104 && t.fcwWord == 0x4050) = true := by
  decide +kernel
/-- T43.26. -/
theorem test_sra : after [0xB319, 0xFFFF]
    (start 0x4000 [(1, 0x8001)] []) (fun t =>
      t.word 1 == 0xC000 && t.pc == 0x0104 && t.fcwWord == 0x40A0) = true := by
  decide +kernel
/-- T43.30. -/
theorem test_srll_whole_width : after [0xB345, 0xFFE0]
    (start 0x4000 [(4, 0x8000), (5, 0x0000)] []) (fun t =>
      t.word 4 == 0x0000 && t.pc == 0x0104 && t.fcwWord == 0x40D0) = true := by
  decide +kernel
/-- T44.1. -/
theorem test_call : after [0x5F00, 0x1234]
    (start 0x4000 [(15, 0x8000)] []) (fun t =>
      t.word 15 == 0x7FFE && t.peekWord .data 0x7FFE == 0x0104 && t.pc == 0x1234 && t.fcwWord == 0x4000) = true := by
  decide +kernel
/-- T44.4. -/
theorem test_calr_backward : after [0xD003]
    { start 0x4000 [(15, 0x8000)] [] with pc := 0x0200 } (fun t =>
      t.word 15 == 0x7FFE && t.peekWord .data 0x7FFE == 0x0202 && t.pc == 0x01FC && t.fcwWord == 0x4000) = true := by
  decide +kernel
/-- T44.8. -/
theorem test_djnz : after [0xF282]
    { start 0x4040 [(2, 0x0003)] [] with pc := 0x0300 } (fun t =>
      t.word 2 == 0x0002 && t.pc == 0x02FE && t.fcwWord == 0x4040) = true := by
  decide +kernel
/-- T44.11. -/
theorem test_dbjnz : after [0xF902]
    { start 0x4000 [(1, 0x5501)] [] with pc := 0x0300 } (fun t =>
      t.word 1 == 0x5500 && t.pc == 0x0302 && t.fcwWord == 0x4000) = true := by
  decide +kernel
/-- T44.12. -/
theorem test_jp : after [0x5E0E, 0x2000]
    (start 0x4000 [] []) (fun t =>
      t.pc == 0x2000 && t.fcwWord == 0x4000) = true := by
  decide +kernel
/-- T44.19. -/
theorem test_jr_backward : after [0xE8FF]
    (start 0x4000 [] []) (fun t =>
      t.pc == 0x0100 && t.fcwWord == 0x4000) = true := by
  decide +kernel
/-- T44.23. -/
theorem test_ret : after [0x9E08]
    (start 0x4000 [(15, 0x7FFE)] [(0x7FFE, 0x0104)]) (fun t =>
      t.word 15 == 0x8000 && t.pc == 0x0104 && t.fcwWord == 0x4000) = true := by
  decide +kernel
/-- T45.3. -/
theorem test_cpi : after [0xBB10, 0x0206]
    (start 0x4000 [(0, 0x0005), (1, 0x1000), (2, 0x0001)] [(0x1000, 0x0007)]) (fun t =>
      t.word 1 == 0x1002 && t.word 2 == 0x0000 && t.pc == 0x0104 && t.fcwWord == 0x40B0) = true := by
  decide +kernel
/-- T45.8. -/
theorem test_cpsi : after [0xBB22, 0x0346]
    (start 0x4000 [(2, 0x1000), (4, 0x2000), (3, 0x0001)] [(0x1000, 0x1234), (0x2000, 0x1234)]) (fun t =>
      t.word 2 == 0x1002 && t.word 3 == 0x0000 && t.word 4 == 0x2002 && t.pc == 0x0104 && t.fcwWord == 0x4050) = true := by
  decide +kernel
/-- T45.10. -/
theorem test_ldd : after [0xBB29, 0x0348]
    (start 0x4000 [(2, 0x1002), (4, 0x2002), (3, 0x0001)] [(0x1002, 0xBEEF)]) (fun t =>
      t.word 2 == 0x1000 && t.word 3 == 0x0000 && t.word 4 == 0x2000 && t.peekWord .data 0x2002 == 0xBEEF &&
      t.pc == 0x0104 && t.fcwWord == 0x4050) = true := by
  decide +kernel
/-- T45.12. -/
theorem test_ldib : after [0xBA21, 0x0348]
    (State.poke (start 0x4050 [(2, 0x1001), (4, 0x2000), (3, 0x0009)] []) .data 0x1001 0x7E) (fun t =>
      t.word 2 == 0x1002 && t.word 3 == 0x0008 && t.word 4 == 0x2001 && t.peek .data 0x2000 == 0x7E && t.pc ==
      0x0104 && t.fcwWord == 0x4000) = true := by
  decide +kernel
/-- T45.17. -/
theorem test_trdb : after [0xB828, 0x0340]
    (State.poke (State.poke (start 0x4000 [(2, 0x1005), (4, 0x3000), (3, 0x0002)] []) .data 0x1005 0x61) .data 0x3061 0x41) (fun t =>
      t.word 2 == 0x1004 && t.word 3 == 0x0001 && t.peek .data 0x1005 == 0x41 && t.pc == 0x0104 && t.fcwWord
      == 0x4000) = true := by
  decide +kernel
/-- T45.20. -/
theorem test_trib_unsigned_index : after [0xB820, 0x0340]
    (State.poke (State.poke (start 0x4000 [(2, 0x1000), (4, 0x3000), (3, 0x0002)] []) .data 0x1000 0xFF) .data 0x30FF 0x77) (fun t =>
      t.word 2 == 0x1001 && t.word 3 == 0x0001 && t.peek .data 0x1000 == 0x77 && t.pc == 0x0104 && t.fcwWord
      == 0x4000) = true := by
  decide +kernel
/-- T45.21. -/
theorem test_trtdb : after [0xB82A, 0x0340]
    (State.poke (State.poke (start 0x4040 [(1, 0xAAAA), (2, 0x1005), (4, 0x3000), (3, 0x0007)] []) .data 0x1005 0x2C) .data 0x302C 0x01) (fun t =>
      t.word 1 == 0x01AA && t.word 2 == 0x1004 && t.word 3 == 0x0006 && t.pc == 0x0104 && t.fcwWord == 0x4000) = true := by
  decide +kernel
/-- T46.1. -/
theorem test_in : after [0x3D21]
    { start 0x4000 [(2, 0x0040)] [] with portIn := [0x1234] } (fun t =>
      t.word 1 == 0x1234 && t.pc == 0x0102 && t.fcwWord == 0x4000) = true := by
  decide +kernel
/-- T46.3. -/
theorem test_indb_odd_port : after [0x3A28, 0x0348]
    { start 0x4000 [(2, 0x0041), (4, 0x2005), (3, 0x0002)] [] with portIn := [0x5a5a] } (fun t =>
      t.word 3 == 0x0001 && t.word 4 == 0x2004 && t.peek .data 0x2005 == 0x5A && t.pc == 0x0104 && t.fcwWord
      == 0x4000) = true := by
  decide +kernel
/-- T46.5. -/
theorem test_ini : after [0x3B20, 0x0348]
    { start 0x4000 [(2, 0x0040), (4, 0x2000), (3, 0x0001)] [] with portIn := [0xcafe] } (fun t =>
      t.word 3 == 0x0000 && t.word 4 == 0x2002 && t.peekWord .data 0x2000 == 0xCAFE && t.pc == 0x0104 &&
      t.fcwWord == 0x4010) = true := by
  decide +kernel
/-- T46.7. -/
theorem test_out : after [0x3B56, 0x0020]
    (start 0x4000 [(5, 0xBEEF)] []) (fun t =>
      t.pc == 0x0104 && wrote .standardIo 0x0020 0xBEEF false t && t.fcwWord == 0x4000) = true := by
  decide +kernel
/-- T46.9. -/
theorem test_outd : after [0x3B2A, 0x0348]
    (start 0x4000 [(2, 0x1002), (4, 0x0040), (3, 0x0005)] [(0x1002, 0x00FF)]) (fun t =>
      t.word 2 == 0x1000 && t.word 3 == 0x0004 && t.pc == 0x0104 && wrote .standardIo 0x0040 0x00FF false t &&
      t.fcwWord == 0x4000) = true := by
  decide +kernel
/-- T46.11. -/
theorem test_souti : after [0x3B23, 0x0348]
    (start 0x4000 [(2, 0x1000), (4, 0x00F0), (3, 0x0001)] [(0x1000, 0x8001)]) (fun t =>
      t.word 2 == 0x1002 && t.word 3 == 0x0000 && t.pc == 0x0104 && wrote .specialIo 0x00F0 0x8001 false t &&
      t.fcwWord == 0x4010) = true := by
  decide +kernel
/-- T47.1. -/
theorem test_comflg : after [0x8DC5]
    (start 0x4080 [] []) (fun t =>
      t.pc == 0x0102 && t.fcwWord == 0x4044) = true := by
  decide +kernel
/-- T47.4. -/
theorem test_resflg : after [0x8D83]
    (start 0x40C0 [] []) (fun t =>
      t.pc == 0x0102 && t.fcwWord == 0x4040) = true := by
  decide +kernel
/-- T47.6. -/
theorem test_setflg : after [0x8D51]
    (start 0x4000 [] []) (fun t =>
      t.pc == 0x0102 && t.fcwWord == 0x4050) = true := by
  decide +kernel
/-- T47.8. -/
theorem test_di : after [0x7C01]
    (start 0x5800 [] []) (fun t =>
      t.pc == 0x0102 && t.fcwWord == 0x4800) = true := by
  decide +kernel
/-- T47.13. -/
theorem test_ei : after [0x7C04]
    (start 0x4000 [] []) (fun t =>
      t.pc == 0x0102 && t.fcwWord == 0x5800) = true := by
  decide +kernel
/-- T47.15. -/
theorem test_iret : after [0x7B00]
    (start 0x4000 [(15, 0x7FFA)] [(0x7FFA, 0x7F05), (0x7FFC, 0x4040), (0x7FFE, 0x0102)]) (fun t =>
      t.word 15 == 0x8000 && t.pc == 0x0102 && t.fcwWord == 0x4040) = true := by
  decide +kernel
/-- T47.17. -/
theorem test_sc : after [0x7F05]
    { start 0x4040 [(15, 0x8000)] [(0x100C, 0x4000), (0x100E, 0x2000)] with psap := 0x1000 } (fun t =>
      t.word 15 == 0x7FFA && t.peekWord .data 0x7FFE == 0x0102 && t.peekWord .data 0x7FFC == 0x4040 &&
      t.peekWord .data 0x7FFA == 0x7F05 && t.pc == 0x2000 && t.fcwWord == 0x4000) = true := by
  decide +kernel
/-- T47.18. -/
theorem test_ldctl_psap : after [0x7D1D]
    (start 0x4000 [(1, 0x12FF)] []) (fun t =>
      t.psap == 0x1200 && t.pc == 0x0102 && t.fcwWord == 0x4000) = true := by
  decide +kernel
/-- T47.19. -/
theorem test_ldctl_fcw_rev1 : after [0x7D2A]
    (start 0x4000 [(2, 0xFFFF)] []) (fun t =>
      t.pc == 0x0102 && t.fcwWord == 0x58FC) = true := by
  decide +kernel
/-- T47.24. -/
theorem test_ldctlb_from : after [0x8C81]
    (start 0x40C4 [(0, 0x0000)] []) (fun t =>
      t.word 0 == 0x00C4 && t.pc == 0x0102 && t.fcwWord == 0x40C4) = true := by
  decide +kernel
/-- T47.25. -/
theorem test_ldctlb_to : after [0x8C19]
    (start 0x4000 [(1, 0xFF00)] []) (fun t =>
      t.pc == 0x0102 && t.fcwWord == 0x40FC) = true := by
  decide +kernel
/-- T47.26. -/
theorem test_ldps : after [0x3940]
    (start 0x4000 [(4, 0x3000)] [(0x3000, 0x5800), (0x3002, 0x0400)]) (fun t =>
      t.pc == 0x0400 && t.fcwWord == 0x5800) = true := by
  decide +kernel
/-- T47.M1. -/
theorem test_mset : after [0x7B08]
    { start 0x4000 [] [] with mob := true } (fun t =>
      t.mob == false && t.pc == 0x0102 && t.fcwWord == 0x4000) = true := by
  decide +kernel
/-- T47.M2. -/
theorem test_mres : after [0x7B09]
    { start 0x4000 [] [] with mob := false } (fun t =>
      t.mob == true && t.pc == 0x0102 && t.fcwWord == 0x4000) = true := by
  decide +kernel
/-- T47.M3. -/
theorem test_mbit : after [0x7B0A]
    { start 0x4020 [] [] with mib := [false] } (fun t =>
      t.pc == 0x0102 && t.fcwWord == 0x4000) = true := by
  decide +kernel
/-- T47.M5. -/
theorem test_mreq_granted_low : after [0x7B3D]
    { start 0x4000 [(3, 0x0010)] [] with mib := [true, false] } (fun t =>
      t.mob == false && t.word 3 == 0x0000 && t.fcwWord == 0x4060) = true := by
  decide +kernel
/-- T48.1. -/
theorem test_ld_from_epu_wraps_registers : after [0x8F00, 0x0E02]
    { start 0x6000 [] [] with cfg := fullRevision, epuIn := [0x1111, 0x2222, 0x3333] } (fun t =>
      t.word 14 == 0x1111 && t.word 15 == 0x2222 && t.word 0 == 0x3333 && t.pc == 0x0104 && t.fcwWord ==
      0x6000) = true := by
  decide +kernel
/-- T48.3. -/
theorem test_ldb_fcw_epu : after [0x8E00, 0x0000]
    { start 0x6000 [] [] with cfg := fullRevision, epuIn := [0x0040] } (fun t =>
      t.pc == 0x0104 && t.fcwWord == 0x6040) = true := by
  decide +kernel
/-- T60.2. -/
theorem test_extended_word_traps_on_rev1 : after [0x8F00, 0x0E02]
    { start 0x4000 [(15, 0x8000)] [(0x000C, 0x4000), (0x000E, 0x0300)] with psap := 0x0000 } (fun t =>
      t.word 15 == 0x7FFA && t.peekWord .data 0x7FFE == 0x0102 && t.peekWord .data 0x7FFC == 0x4000 &&
      t.peekWord .data 0x7FFA == 0x8F00 && t.pc == 0x0300 && t.fcwWord == 0x4000) = true := by
  decide +kernel
/-- T60.3. -/
theorem test_unimplemented_word_traps : after [0x4D09, 0x2000]
    { start 0x4000 [(15, 0x8000)] [(0x000C, 0x4000), (0x000E, 0x0300)] with psap := 0x0000 } (fun t =>
      t.word 15 == 0x7FFA && t.peekWord .data 0x7FFE == 0x0102 && t.peekWord .data 0x7FFC == 0x4000 &&
      t.peekWord .data 0x7FFA == 0x4D09 && t.pc == 0x0300 && t.fcwWord == 0x4000) = true := by
  decide +kernel
/-- T60.F1. -/
theorem test_privileged_instruction_traps : after [0x3D21]
    { start 0x0000 [(15, 0x8000), (1, 0x1111), (2, 0x0040)] [(0x1008, 0x4000), (0x100A, 0x0900)] with cfg := fullRevision, nsp := 0x6000, psap := 0x1000 } (fun t =>
      t.regs[15] == 0x7FFA && t.peekWord .data 0x7FFE == 0x0102 && t.peekWord .data 0x7FFC == 0x0000 &&
      t.peekWord .data 0x7FFA == 0x3D21 && t.nsp == 0x6000 && t.word 1 == 0x1111 && t.pc == 0x0900 &&
      t.fcwWord == 0x4000) = true := by
  decide +kernel
/-- T60.F4. -/
theorem test_iret_to_normal_mode : after [0x7B00]
    { start 0x4000 [(15, 0x7FFA)] [(0x7FFA, 0x7F01), (0x7FFC, 0x0040), (0x7FFE, 0x0102)] with cfg := fullRevision } (fun t =>
      t.regs[15] == 0x8000 && t.pc == 0x0102 && t.fcwWord == 0x0040) = true := by
  decide +kernel
/-- T60.F6. -/
theorem test_push_in_normal_mode : after [0x93F3]
    { start 0x0000 [(15, 0x8000), (3, 0x1234)] [] with cfg := fullRevision, nsp := 0x6000 } (fun t =>
      t.nsp == 0x5FFE && t.peekWord .data 0x5FFE == 0x1234 && t.regs[15] == 0x8000 && t.fcwWord == 0x0000) = true := by
  decide +kernel

/-! ### Interrupts, reset and the pins -/

/-- R1010, R1012: a non-vectored interrupt is entered with the PC of the next instruction (T60.4). -/
theorem test_nvi : gives (step { start 0x4800 [(15, 0x8000)] [(0x1018, 0x4000), (0x101A, 0x0700)] with
      psap := 0x1000, pins := [⟨.released, false, false, true, 0x1234⟩] }) (fun t =>
      t.fcwWord == 0x4000 && t.pc == 0x0700 && t.word 15 == 0x7FFA && t.peekWord .stack 0x7FFE == 0x0100 &&
      t.peekWord .stack 0x7FFC == 0x4800 && t.peekWord .stack 0x7FFA == 0x1234) = true := by
  decide +kernel
/-- R1008, R1009: NMI comes before VI (T60.6). -/
theorem test_nmi_first : gives (step { start 0x5000 [(15, 0x8000)] [(0x1014, 0x4000), (0x1016, 0x0800)] with
      psap := 0x1000, pins := [⟨.released, true, true, false, 0x00FF⟩] }) (fun t =>
      t.pc == 0x0800 && t.fcwWord == 0x4000 && !t.nmiPending && t.peekWord .stack 0x7FFA == 0x00FF) = true := by
  decide +kernel
/-- R1000: the identifier of a vectored interrupt selects the PC word (T60.8). -/
theorem test_vi_vector : gives (step { start 0x5000 [(15, 0x8000)] [(0x101C, 0x4000), (0x1020, 0x0A00)] with
      psap := 0x1000, pins := [⟨.released, false, true, false, 0x0101⟩] }) (fun t => t.pc == 0x0A00) = true := by
  decide +kernel
/-- R856: HALT idles until an interrupt is accepted. -/
theorem test_halt_idles : gives (step { start 0x4000 [] [] with halted := true }) (fun t =>
      t.halted && t.pc == 0x0100) = true := by
  decide +kernel
/-- R1100: RESETF active. -/
theorem test_reset_asserted : gives (step { start 0x58FC [(3, 7)] [(2, 0x5800), (4, 0x1234)] with
      psap := 0x1200, refresh := 0xFFFF, mob := false, halted := true, pins := [⟨.asserted, true, false, false, 0⟩] })
      (fun t => t.resetting && t.psap == 0 && t.refresh == 0x7FFF && t.mob && !t.halted && !t.nmiPending && t.word 3 == 7 &&
        t.bus == []) = true := by
  decide +kernel
/-- R44, R1100: with a row counter that runs, REN is cleared and the Rate field kept. -/
theorem test_reset_stops_the_row_counter : gives (step { start 0x4000 [] [] with
      cfg := fullRevision, refresh := 0xAA00, pins := [⟨.asserted, false, false, false, 0⟩] })
      (fun t => t.resetting && t.freeCount == 1) = true ∧
    ∀ row, State.refreshKept row { start 0x4000 [] [] with cfg := fullRevision, refresh := 0xAA00 } &&& 0xFE00 = 0x2A00 := by
  decide +kernel
/-- R1100, R1103: RESETF inactive again. -/
theorem test_reset_released : gives (step { start 0x58FC [(3, 7)] [(2, 0x5800), (4, 0x1234)] with resetting := true })
      (fun t => !t.resetting && t.fcwWord == 0x5800 && t.pc == 0x1234 && t.word 3 == 7 &&
        t.bus == [.transfer .program true true false 4 0x1234, .transfer .program true true false 2 0x5800]) = true := by
  decide +kernel
/-- R1100, D12: a reset after one of the two writes of LDL leaves the first written and the other not. -/
theorem test_reset_in_a_step : after [0x1D62]
    { start 0x4000 [(2, 0x1111), (3, 0x2222), (6, 0x3000)] [] with pins := [⟨.during 2, false, false, false, 0⟩] }
    (fun t => t.resetting && t.peekWord .data 0x3000 == 0x1111 && t.peekWord .data 0x3002 == 0 && t.word 2 == 0x1111) =
    true := by
  decide +kernel
/-- R21, R1100: a reset inside LDB RL1, 0x3000 before the byte is read leaves R1 alone; after that it leaves RH1 alone. -/
theorem test_reset_in_a_byte_load : after [0x6009, 0x3000]
    { start 0x4000 [(1, 0x5566)] [(0x3000, 0x1234)] with pins := [⟨.during 2, false, false, false, 0⟩] }
    (fun t => t.resetting && t.word 1 == 0x5566) = true := by
  decide +kernel
theorem test_reset_keeps_the_other_byte : hiByte (keptOrFree 0 1 0x5566 0x5512) = 0x55 :=
  (keptOrFree_halves 0 1 0x5566 0x5512).1 rfl
/-- R873, R1100: the count-down of MREQ R3 writes R3 and no other register. -/
theorem test_reset_in_mreq : after [0x7B3D]
    { start 0x4000 [(2, 0x0007), (3, 0)] [] with mib := [true, true], pins := [⟨.during 2, false, false, false, 0⟩] }
    (fun t => t.resetting && t.word 2 == 7 && t.mib == [true] && t.bus.length == 1) = true := by
  decide +kernel
/-- R86, R1100: a reset before the read at an odd address comes before the stop, one after it does not. -/
theorem test_reset_before_an_odd_access :
    after [0x6101, 0x4001] { start 0x4000 [] [] with pins := [⟨.during 2, false, false, false, 0⟩] }
      (fun t => t.resetting && t.bus.length == 2) = true ∧
    step (placeWords [0x6101, 0x4001] 0x0100 { start 0x4000 [] [] with pins := [⟨.during 3, false, false, false, 0⟩] }) =
      .fault (.misaligned 0x4001) :=
  ⟨by decide +kernel, by rfl⟩
/-- R157, D19: words of the privileged rows that begin no instruction are refused in normal mode too. -/
theorem test_undocumented_first_words_do_not_trap : [(0x3C00 : Word), 0x3F00, 0x3A00, 0x3B09].all (fun w =>
    match step (placeWords [w, 0] 0x0100 { start 0 [] [] with cfg := { Config.defaults with rev := .full } }) with
    | .refused (.undecodable _) => true
    | .next _ => false
    | .fault _ => false
    | .refused _ => false) = true := by
  decide +kernel
/-- R99, D28: a repeating block instruction that stores over its own words goes on as what it was. -/
theorem test_block_over_its_own_words :
    (match step (placeWords [0xBB21, 0x0340] 0x0100 (start 0x4000 [(2, 0x2000), (4, 0x0100), (3, 2)]
      [(0x2000, 0x8D07), (0x2002, 0x8D07)])) with
    | .next t => t.peekWord .prog 0x0100 == 0x8D07 && t.pc == 0x0100 &&
        gives (step t) (fun u => u.peekWord .prog 0x0102 == 0x8D07 && u.word 3 == 0 && u.pc == 0x0104)
    | .fault _ => false
    | .refused _ => false) = true := by
  decide +kernel
/-- R71, R1008, R1010: the aborted fetch of the next first word, then the acknowledge, before the pushes. -/
theorem test_interrupt_transactions : gives (step { start 0x4800 [(15, 0x8000)] [] with
      pins := [⟨.released, false, false, true, 0x1234⟩] }) (fun t =>
      t.bus.reverse.take 2 == [.transfer .firstWord true true false 0x0100 0, .transfer .nviAck true true false 0 0x1234]) =
    true := by
  decide +kernel
/-- R86, R87: odd addresses stop. -/
theorem test_odd_word_faults : step (placeWords [0x6101, 0x4001] 0x0100 (start 0x4000 [] [])) =
    .fault (.misaligned 0x4001) := rfl
theorem test_odd_fetch_faults : step { start 0x4000 [] [] with pc := 0x0101 } = .fault (.oddFetch 0x0101) := rfl

/-! ### The obligations' hypotheses can be met -/

/-- Full revision, system mode, EPA = 1. -/
def system : State :=
  { start 0x6000 [(0, 0x1000), (2, 0x2000), (3, 0x0002), (4, 0x3000), (15, 0x8000)] [] with cfg := fullRevision }
/-- Full revision, normal mode, EPA = 0. -/
def user : State :=
  { start 0x0000 [(0, 0x1000), (2, 0x2000), (3, 0x0002), (4, 0x3000), (15, 0x8000)] [] with
    cfg := fullRevision, nsp := 0x6000 }
/-- `user` with a `PRIV_SET` that names nothing. -/
def free : State := { user with cfg := { fullRevision with privSet := [] } }
/-- Odd addresses are allowed, and R1, R14 and SSP are odd. -/
def lenient : State :=
  { start 0x4000 [(1, 0xFFFF), (14, 0x1001), (15, 0x8001)] [] with
    cfg := { Config.defaults with misaligned := .ignoreA0, oddPc := .ignoreA0 }, pc := 0xFFFF }
/-- Odd addresses stop, and R1, R14 and SSP are odd. -/
def strict : State := { start 0x4000 [(1, 0xFFFF), (14, 0x1001), (15, 0x8001)] [] with pc := 0x0101 }

theorem witness_DecodeInvertsEncode : [Instr.ldl 14 (.mem (.std (.x 0xFFFF 15))), .multl 12 (.imm 0xFFFFFFFF),
    .ldFromEpuMem (.x 0xFFFF 15) 3 0xFFF 15, .sra 15 0x7FFF, .calr 0xFFF, .otirb 14 15 0 .nz, .nop].all WellFormed = true := by
  decide +kernel

theorem witness_UnimplementedWordsAreNoInstruction :
    [(0x4D09 : Word), 0x7E00, 0x7EFF].all unimplemented = true := by
  decide +kernel

theorem witness_StepKeepsInv : State.reset.Inv ∧ (∃ t, step State.reset = .next t) ∧
    State.Inv user ∧ ∃ t, step user = .next t :=
  ⟨by unfold State.Inv; decide, next_of_runs (by decide +kernel), by unfold State.Inv; decide +kernel,
    next_of_runs (by decide +kernel)⟩

/-- The state of a step: three words, the last address, an odd PC; words that decode to nothing; and a block instruction
that is held. -/
theorem witness_StepRunsDecoded :
    (let s := placeWords [0x5D08, 0x1234] 0x0100 system
     s.fetches = true ∧ s.pcReady = true ∧ firstWordTrap (s.peekWord .prog (evenAddress s.pc)) s = none ∧
       s.fetched = some (.ldlStore (.std (.da 0x1234)) 8, 2)) ∧
    (let s := placeWords [0x8D07] 0xFFFE lenient
     s.fetches = true ∧ s.pcReady = true ∧ s.pc.getLsbD 0 = true ∧
       firstWordTrap (s.peekWord .prog (evenAddress s.pc)) s = none ∧ s.fetched = some (.nop, 1)) ∧
    (let s := placeWords [0x2009, 0x127F] 0x0100 user
     s.fetches = true ∧ s.pcReady = true ∧ firstWordTrap (s.peekWord .prog (evenAddress s.pc)) s = none ∧
       s.decoded = .error .unequalCopies) ∧
    (let s := { system with ir := 0xBB21, ir2 := 0x0340, repeating := true }
     s.quiet = true ∧ s.repeating = true ∧ decodeWords [s.ir, s.ir2] = .ok (.ldir 4 2 3 .f, [])) := by
  decide +kernel

/-- The step fetches, PC and the stack can be used, and the next word is `w`. -/
def fetches (w : Word) (s : State) : Bool :=
  s.fetches && s.pcReady && s.entryReady && s.peekWord .prog (evenAddress s.pc) == w
/-- One state for each of the three traps, the extended word with `REV = Rev1`, and a word that begins no instruction. -/
theorem witness_StepTakesTrap :
    (unimplemented 0x7E00 = true ∧ fetches 0x7E00 (placeWords [0x7E00] 0x0100 user) = true) ∧
    (unimplemented 0x4D09 = true ∧ fetches 0x4D09 (placeWords [0x4D09] 0x0100 user) = true) ∧
    (extendedWord 0x8F00 = true ∧ State.reset.cfg.rev = .rev1 ∧
      fetches 0x8F00 (placeWords [0x8F00] 0 State.reset) = true) ∧
    (unimplemented 0x8F00 = false ∧ user.cfg.rev = .full ∧ user.fcw.epa = false ∧
      fetches 0x8F00 (placeWords [0x8F00] 0x0100 user) = true) ∧
    (unimplemented 0x3D21 = false ∧ extendedWord 0x3D21 = false ∧ beginsInstruction 0x3D21 = true ∧
      privilegedWord user.cfg.privSet 0x3D21 = true ∧ user.fcw.sys = false ∧
      fetches 0x3D21 (placeWords [0x3D21] 0x0100 user) = true) ∧
    (unimplemented 0x3C00 = false ∧ extendedWord 0x3C00 = false ∧ beginsInstruction 0x3C00 = false ∧
      privilegedWord user.cfg.privSet 0x3C00 = true ∧ fetches 0x3C00 (placeWords [0x3C00] 0x0100 user) = true) := by
  decide +kernel

theorem witness_StepTakesInterrupt :
    (let s := { system with nmiPending := true }
     s.running = true ∧ s.entryReady = true ∧ s.nmiPending = true) ∧
    (let s := { system with pins := [⟨.released, true, true, true, 0xFFFF⟩] }
     s.running = true ∧ s.entryReady = true ∧ (takePins s).1.nmiEdge = true) ∧
    (let s := ({ system with pins := [⟨.released, false, true, true, 0x00FF⟩] }).setFcw { Fcw.reset with vie := true, nvie := true }
     s.running = true ∧ s.entryReady = true ∧ s.nmiPending = false ∧ (takePins s).1.nmiEdge = false ∧
       (takePins s).1.vi = true ∧ s.fcw.vie = true) ∧
    (let s := ({ system with pins := [⟨.released, false, true, true, 0⟩] }).setFcw { Fcw.reset with nvie := true }
     s.running = true ∧ s.entryReady = true ∧ s.nmiPending = false ∧ (takePins s).1.nmiEdge = false ∧
       s.fcw.vie = false ∧ (takePins s).1.nvi = true ∧ s.fcw.nvie = true) ∧
    (let s := ({ system with pins := [⟨.released, false, false, true, 0⟩] }).setFcw { Fcw.reset with vie := true, nvie := true }
     s.running = true ∧ s.entryReady = true ∧ s.nmiPending = false ∧ (takePins s).1.nmiEdge = false ∧
       (takePins s).1.vi = false ∧ (takePins s).1.nvi = true ∧ s.fcw.nvie = true) := by
  decide +kernel

/-- A reset of a state that reset changes, before, after and in a step (also for PsapHoldsItsUpperByte and MobLatch). -/
theorem witness_StepResets :
    (let s := { user with psap := 0x1200, mob := false, pins := [⟨.asserted, true, true, true, 0⟩] }
     (takePins s).1.reset = .asserted ∧ s.running = false ∧ ∃ t, step s = .next t) ∧
    (let s := { user with psap := 0x1200, mob := false, resetting := true, pins := [⟨.released, true, true, true, 0⟩] }
     (takePins s).1.reset = .released ∧ s.resetting = true ∧ s.running = false ∧ ∃ t, step s = .next t) ∧
    (let p : PinSample := ⟨.released, false, false, false, 0⟩
     let s := { placeWords [0x93F2] 0x0100 system with pins := [{ p with reset := .during 0 }] }
     s.pins = { p with reset := .during 0 } :: [] ∧ s.running = false ∧ ∃ t, step s = .next t) :=
  ⟨⟨by decide +kernel, by decide +kernel, next_of_runs (by decide +kernel)⟩,
    ⟨by decide +kernel, rfl, by decide +kernel, next_of_runs (by decide +kernel)⟩,
    ⟨rfl, by decide +kernel, next_of_runs (by decide +kernel)⟩⟩

/-- A row counter that runs, one that does not; and inside a step: a step that fetches, at an odd PC too; LDB and LD from memory, of two words and of one, before, at and
after the last fetch; and LD at an odd address. -/
theorem witness_StepResets_inside :
    (let s := { user with refresh := 0x8001 }
     s.cfg.rev = .full ∧ s.refresh.getLsbD 15 = true ∧ user.refresh.getLsbD 15 = false ∧ State.reset.cfg.rev = .rev1) ∧
    (let r := { strict with pins := [⟨.released, false, false, false, 0⟩] }
     r.fetches = true ∧ r.pcReady = false) ∧
    (let r := { placeWords [0x6009, 0x3000] 0x0100 system with pins := [⟨.released, false, false, false, 0⟩] }
     r.fetches = true ∧ r.pcReady = true ∧ firstWordTrap (r.peekWord .prog (evenAddress r.pc)) r = none ∧
       r.fetched = some (.ldb 9 (.mem (.std (.da 0x3000))), 2)) ∧
    (let r := { placeWords [0x202F] 0x0100 user with pins := [⟨.released, false, false, false, 0⟩] }
     r.fetches = true ∧ r.pcReady = true ∧ firstWordTrap (r.peekWord .prog (evenAddress r.pc)) r = none ∧
       r.fetched = some (.ldb 15 (.mem (.std (.ind 2))), 1)) ∧
    (let r := { placeWords [0x6101, 0x4001] 0x0100 system with pins := [⟨.released, false, false, false, 0⟩] }
     r.fetches = true ∧ r.pcReady = true ∧ firstWordTrap (r.peekWord .prog (evenAddress r.pc)) r = none ∧
       r.fetched = some (.ld 1 (.mem (.std (.da 0x4001))), 2) ∧
       r.ldReady .w (.mem (.std (.da 0x4001))) = false) := by
  decide +kernel

theorem witness_HaltStopsExecution :
    system.allowed .halt = true ∧
    (let s := { user with halted := true, pins := [⟨.released, false, true, true, 0⟩] }
     s.halted = true ∧ s.running = true ∧ s.request = none) ∧
    (let s := { user with halted := true, pins := [⟨.asserted, false, false, false, 0⟩] }
     s.running = false ∧ ∃ t, step s = .next t) ∧
    (let s := { user with halted := true, nmiPending := true }
     s.request.isSome = true ∧ ∃ t, step s = .next t) :=
  ⟨by decide +kernel, by decide +kernel, ⟨by decide +kernel, next_of_runs (by decide +kernel)⟩,
    ⟨by decide +kernel, next_of_runs (by decide +kernel)⟩⟩

/-- Also for ScAndIret, PrivilegedTraps and ExtendedTraps: a usable system stack pointer, the last and an odd one. -/
theorem witness_EntrySequence : user.entryReady = true ∧ lenient.entryReady = true ∧ State.reset.entryReady = true ∧
    strict.entryReady = false := by
  decide +kernel

theorem witness_ScAndIret : system.allowed .iret = true ∧ system.reaches .w (system.word 15) = true ∧
    free.allowed .iret = true ∧ free.reaches .w (free.word 15) = true := by
  decide +kernel

theorem witness_ScThenIret :
    (State.reset.Inv ∧ ∃ t, exec (.sc 0xFF) State.reset = .next t ∧ t.fcw.sys = true) ∧
    (let s := (user.pokeWord .data 0x000C 0x4000)
     s.Inv ∧ ∃ t, exec (.sc 0) s = .next t ∧ t.fcw.sys = true) :=
  ⟨⟨by unfold State.Inv; decide, next_of_gives (by decide +kernel)⟩,
    ⟨by unfold State.Inv; decide +kernel, next_of_gives (by decide +kernel)⟩⟩

/-- One instruction of each row of R1041 (also for OddAddressesFault), at every number of words. -/
theorem witness_PrivilegedTraps : user.entryReady = true ∧
    [Instr.inp 0 (.ir 15), .soutib 14 15 0, .otdrb 14 15 0 .nz, .di 3, .halt, .iret, .mreq 15, .mset, .ldctlTo .nsp 15,
      .ldps (.x 0xFFFF 15), .outp (.da 0xFFFF) 15].all (fun i => !user.allowed i && (privilegedWords i).isSome &&
        WellFormed i) = true ∧
    privilegedWords (.ldps (.ind 15)) = some 1 ∧ privilegedWords (.ldps (.da 0)) = some 2 := by
  decide +kernel

theorem witness_ExtendedTraps : user.entryReady = true ∧ user.cfg.rev = .full ∧ user.fcw.epa = false ∧
    State.reset.entryReady = true ∧ State.reset.cfg.rev = .rev1 ∧ extendedWords (.epui 15 3 0 0) = some 2 ∧
    extendedWords (.ldToEpuMem (.ind 1) 0 0 0) = some 2 ∧ extendedWords (.ldFromEpuMem (.da 0) 0 0 15) = some 3 := by
  decide +kernel

theorem witness_NormalModeIsolated : user.fcw.sys = false ∧ ordinary (.pushw 15 (.reg 0)) = true ∧
    ordinary (.ldctlbTo 0) = true ∧ (∃ t, exec (.pushw 15 (.reg 0)) user = .next t) ∧
    ∃ t, exec (.ldctlbTo 0) user = .next t :=
  ⟨by decide +kernel, rfl, rfl, next_of_runs (by decide +kernel), next_of_runs (by decide +kernel)⟩

theorem witness_PsapHoldsItsUpperByte : system.allowed (.ldctlTo .psap 0) = true ∧
    system.allowed (.ldctlFrom 15 .psap) = true ∧
    ∃ t, exec (.ldctlTo .psap 0) system = .next t ∧ decide (t.psap ≠ system.psap) = true :=
  ⟨by decide +kernel, by decide +kernel, next_of_gives (by decide +kernel)⟩

/-- The default places, and SEG at the lowest place it can have. -/
theorem witness_SegReadsZero : FcwBits.ok Config.fcwBits = true ∧ FcwBits.ok ⟨8, 15, 14, 0, 1⟩ = true ∧
    FcwBits.ok ⟨15, 14, 12, 3, 2⟩ = false := by
  decide
theorem witness_FcwWriteReadsBack : fullRevision.fcwBits = Config.fcwBits ∧ fullRevision.rev = .full ∧
    Config.defaults.rev = .rev1 ∧ FcwBits.ok fullRevision.fcwBits = true := by
  decide

theorem witness_MemoryAccess : (0x0000 : Word).getLsbD 0 = false ∧ (0xFFFE : Word).getLsbD 0 = false := by decide

/-- Every size, an odd byte, and odd word and long addresses at the end of the space. -/
theorem witness_StoredValueReadsBack :
    (match store .b .data 0xFFFF 0x80 strict with | .ok _ => true | .error _ => false) = true ∧
    (match store .w .prog 0xFFFE 0x8001 strict with | .ok _ => true | .error _ => false) = true ∧
    (match store .l .stack 0xFFFF 0x80000001 lenient with | .ok _ => true | .error _ => false) = true := by
  decide +kernel

theorem witness_RegisterDestinationFrame :
    target (.addb 8 (.mem (.ind 2))) = some (.b, 8) ∧ target (.ldl 2 (.reg 4)) = some (.l, 2) ∧
    target (.ldk 15 1) = some (.w, 15) ∧
    (∃ t, exec (.addb 8 (.mem (.ind 2))) system = .next t) ∧
    (∃ t, exec (.ldl 2 (.reg 4)) user = .next t) ∧ ∃ t, exec (.ldk 15 1) user = .next t :=
  ⟨rfl, rfl, rfl, next_of_runs (by decide +kernel), next_of_runs (by decide +kernel), next_of_runs (by decide +kernel)⟩

theorem witness_MemoryDestinationFrame :
    storage (.ldStore (.bx 2 4) 0) system = some (.w, .data, 0x5000) ∧
    storage (.incb (.mem (.da 0xFFFF)) 0) user = some (.b, .data, 0xFFFF) ∧
    storage (.ldrlStore 0xFFFE 2) system = some (.l, .prog, 0x00FE) ∧
    (∃ t, exec (.ldStore (.bx 2 4) 0) system = .next t) ∧
    (∃ t, exec (.incb (.mem (.da 0xFFFF)) 0) user = .next t) ∧
    ∃ t, exec (.ldrlStore 0xFFFE 2) system = .next t :=
  ⟨by decide +kernel, by decide +kernel, by decide +kernel, next_of_runs (by decide +kernel),
    next_of_runs (by decide +kernel), next_of_runs (by decide +kernel)⟩

theorem witness_FlagsKept : keepsFlags (.extsb 0) = true ∧ keepsFlags (.djnz 3 1) = true ∧
    (∃ t, exec (.extsb 0) user = .next t) ∧ ∃ t, exec (.djnz 3 1) user = .next t :=
  ⟨rfl, rfl, next_of_runs (by decide +kernel), next_of_runs (by decide +kernel)⟩

/-- Register, even and odd memory, and the last address of the space. -/
theorem witness_LoadsAndStores :
    system.ldReady .w (.mem (.std (.da 0xFFFE))) = true ∧ system.ldReady .b (.mem (.ba 2 0x0001)) = true ∧
    pairOk 14 = true ∧ system.ldReady .l (.reg 14) = true ∧ system.ldReady .l (.mem (.bx 2 4)) = true ∧
    lenient.ldReady .l (.mem (.std (.ind 1))) = true ∧ system.reaches .w (system.pc + 0xFEFE) = true ∧
    system.reaches .w (ldEA (.std (.ind 2)) system).2 = true := by
  decide +kernel

theorem witness_LoadsConstant : system.dstReady .w (.reg 15) = true ∧ system.dstReady .w (.mem (.da 0xFFFE)) = true ∧
    lenient.dstReady .w (.mem (.ind 1)) = true ∧ pairOk 14 = true := by
  decide +kernel

theorem witness_Exchanges : system.memReady .w (.x 0x0002 2) = true ∧ lenient.memReady .w (.ind 1) = true := by
  decide +kernel

theorem witness_LdmMovesRegisters : system.memReady .w (.da 0xFFFE) = true ∧ lenient.memReady .w (.ind 14) = true := by
  decide +kernel

theorem witness_StackInstructions :
    (system.srcReady .w (.imm 0xFFFF) = true ∧ system.srcReady .w (.mem (.ind 2)) = true ∧
      system.reaches .w (system.word 15 - 2) = true) ∧
    (system.dstReady .l (.reg 14) = true ∧ system.reaches .l (system.word 15 - 4) = true) ∧
    (popSeparate .w 15 (.reg 14) = true ∧ popSeparate .w 2 (.mem (.x 0 4)) = true ∧ system.reaches .w (system.word 15) = true ∧
      system.dstReady .w (.reg 14) = true ∧ system.dstReady .w (.mem (.x 0 4)) = true) ∧
    (popSeparate .l 15 (.reg 12) = true ∧ system.reaches .l (system.word 15) = true ∧ system.dstReady .l (.reg 12) = true) ∧
    (popSeparate .l 15 (.reg 14) = false ∧ popSeparate .l 2 (.reg 0) = true) := by
  decide +kernel

/-- The operands of the shapes `ComputesReg`, `ComputesFlags`, `ComputesDst`, `InspectsDst` and `ShiftsReg` at every
size (AddAndSubtract, CompareResult, StepAndNegate, LogicResult, BitResult, TestAndSet, RotateResult, ShiftResult). -/
theorem witness_AddAndSubtract :
    regFits .b 15 = true ∧ regFits .w 15 = true ∧ regFits .l 14 = true ∧
    system.srcReady .b (.mem (.da 0xFFFF)) = true ∧ system.srcReady .w (.mem (.da 0xFFFE)) = true ∧
    system.srcReady .l (.mem (.x 0x0002 2)) = true ∧ system.srcReady .l (.reg 14) = true ∧
    system.srcReady .w (.imm 0xFFFF) = true ∧ lenient.srcReady .l (.mem (.ind 1)) = true := by
  decide +kernel
theorem witness_CompareResult : regFits .l 0 = true ∧ system.srcReady .l (.imm 0) = true ∧
    system.memReady .w (.ind 2) = true ∧ lenient.memReady .w (.ind 1) = true := by
  decide +kernel
theorem witness_StepAndNegate : system.dstReady .w (.reg 15) = true ∧ system.dstReady .b (.reg 15) = true ∧
    system.dstReady .w (.mem (.da 0xFFFE)) = true ∧ system.dstReady .b (.mem (.da 0xFFFF)) = true := by
  decide +kernel
theorem witness_LogicResult : system.srcReady .w (.mem (.ind 2)) = true ∧ system.dstReady .l (.reg 14) = true ∧
    system.dstReady .l (.mem (.da 0xFFFC)) = true ∧ lenient.dstReady .w (.mem (.ind 1)) = true := by
  decide +kernel
theorem witness_BitResult : system.dstReady .w (.mem (.ind 2)) = true ∧ system.dstReady .b (.mem (.da 0x0001)) = true := by
  decide +kernel
theorem witness_TestAndSet : system.dstReady .w (.mem (.ind 2)) = true ∧ condHolds .nz system.fcw = true ∧
    condHolds .z system.fcw = false := by
  decide +kernel
theorem witness_RotateResult : regFits .w 0 = true ∧ regFits .b 15 = true ∧ (0 : Reg) ≠ 8 := by decide
theorem witness_ShiftResult : regFits .w 15 = true ∧ regFits .b 15 = true ∧ regFits .l 14 = true ∧ regFits .l 0 = true := by
  decide

theorem witness_MultiplyAndExtend :
    (pairOk 14 = true ∧ srcOutsidePair 14 (.reg 13) = true ∧ system.srcReady .w (.reg 13) = true) ∧
    (pairOk 0 = true ∧ srcOutsidePair 0 (.mem (.ind 0)) = true ∧ system.srcReady .w (.mem (.ind 0)) = true) ∧
    (quadOk 12 = true ∧ srcOutsideQuad 12 (.reg 10) = true ∧ system.srcReady .l (.reg 10) = true) ∧
    (quadOk 0 = true ∧ srcOutsideQuad 0 (.imm 0x80000000) = true ∧ system.srcReady .l (.imm 0x80000000) = true) := by
  decide +kernel

/-- A zero divisor, and quotients at the edges of the three ranges: 32767 and -32768; 32768 and 65535; 65536. -/
theorem witness_DivResult :
    (pairOk 4 = true ∧ srcOutsidePair 4 (.imm 1) = true ∧ system.srcReady .w (.imm 1) = true ∧
      system.srcReady .w (.imm 0) = true) ∧
    (quadOk 4 = true ∧ srcOutsideQuad 4 (.imm 1) = true ∧ system.srcReady .l (.imm 1) = true) ∧
    ([(32767 : Int), -32768].all fun q => fits 16 q && decide (((system.setLong 4 (BitVec.ofInt 32 q)).long 4).toInt = q)) = true ∧
    ([(32768 : Int), 65535, -32769, -65535].all fun q => !fits 16 q && decide (q.natAbs < 2 ^ 16) &&
      decide (((system.setLong 4 (BitVec.ofInt 32 q)).long 4).toInt = q)) = true ∧
    ([(65536 : Int), -65536].all fun q => decide (2 ^ 16 ≤ q.natAbs) &&
      decide (((system.setLong 4 (BitVec.ofInt 32 q)).long 4).toInt = q)) = true ∧
    ([(2147483647 : Int), -2147483648].all fun q => fits 32 q) = true ∧
    ([(2147483648 : Int), 4294967295].all fun q => !fits 32 q && decide (q.natAbs < 2 ^ 32)) = true ∧
    decide (2 ^ 32 ≤ (4294967296 : Int).natAbs) = true ∧
    ((system.setQuad 4 (BitVec.ofInt 64 4294967296)).quad 4).toInt = 4294967296 := by
  decide +kernel

/-- Each row of the table covers the least and the greatest byte of its range, and no byte has two rows. -/
theorem witness_DabFollowsTable :
    (dabTable.all fun w =>
      let k : Fcw := { Fcw.reset with d := w.d, c := w.c, h := w.h }
      w.covers (BitVec.ofNat 8 (w.hiFrom * 16 + w.loFrom)) k && w.covers (BitVec.ofNat 8 (w.hiTo * 16 + w.loTo)) k) = true ∧
    List.Pairwise (fun v w : DabRow => v.d ≠ w.d ∨ v.c ≠ w.c ∨ v.h ≠ w.h ∨ v.hiTo < w.hiFrom ∨ w.hiTo < v.hiFrom ∨
      v.loTo < w.loFrom ∨ w.loTo < v.loFrom) dabTable := by
  decide +kernel

theorem witness_DecimalArithmetic : (let s := start 0x4080 [(0, 0x9999)] []
    s.byte 8 = BitVec.ofNat 8 (99 / 10 * 16 + 99 % 10) ∧ s.byte 0 = BitVec.ofNat 8 (99 / 10 * 16 + 99 % 10)) := by
  decide +kernel

theorem witness_JumpResult : condHolds .t system.fcw = true ∧ condHolds .f system.fcw = false := by decide +kernel
theorem witness_CallResult : system.reaches .w (system.word 15 - 2) = true ∧ memAvoids 15 (.x 0 14) = true ∧
    memAvoids 15 (.ind 14) = true ∧ lenient.reaches .w (lenient.word 15 - 2) = true ∧
    condHolds .t system.fcw = true ∧ system.reaches .w (system.word 15) = true ∧ condHolds .z system.fcw = false := by
  decide +kernel

theorem witness_CallThenReturn : (∃ t, exec (.call (.da 0xFFFE)) user = .next t) ∧
    ∃ t, exec (.call (.ind 1)) lenient = .next t :=
  ⟨next_of_runs (by decide +kernel), next_of_runs (by decide +kernel)⟩

theorem witness_BlockLoadResult : separate 4 2 3 = true ∧ system.reaches .w (system.word 2) = true ∧
    system.reaches .w (system.word 4) = true ∧ blockLoadCondition .f = true ∧ blockLoadCondition .nc = true := by
  decide +kernel
theorem witness_BlockCompareResult : separate 4 2 3 = true ∧ system.reaches .w (system.word 2) = true ∧
    system.reaches .w (system.word 4) = true ∧ separate (byteHome 15) 2 3 = true := by
  decide +kernel
theorem witness_TranslateResult : separate 4 2 3 = true ∧ (4 : Reg) ≠ 1 ∧ (2 : Reg) ≠ 1 ∧ (3 : Reg) ≠ 1 := by decide
/-- Two bytes from 0x2000 to 0x3000. -/
theorem witness_LdirbCopiesBlock : separate 4 2 3 = true ∧
    (∀ j, j < 2 → ∀ k, k < 2 → system.key (dsp 2) (system.word 2 + BitVec.ofNat 16 j) ≠
      system.key (dsp 4) (system.word 4 + BitVec.ofNat 16 k)) ∧ (system.word 3).toNat = 2 := by
  decide +kernel
/-- A count of 0, for 65536 bytes: the two spaces are two stores. -/
theorem witness_LdirbCopiesBlock_whole_space :
    let s := ({ system with cfg := { fullRevision with spaceMap := { Config.uniformMap with stackSys := ⟨1, 0⟩ } } }).setWord 3 0
    separate 4 15 3 = true ∧ s.word 3 = 0 ∧ ∀ j, j < 65536 → ∀ k, k < 65536 →
      s.key (dsp 15) (s.word 15 + BitVec.ofNat 16 j) ≠ s.key (dsp 4) (s.word 4 + BitVec.ofNat 16 k) := by
  refine ⟨by decide, by decide +kernel, fun j _ k _ => ?_⟩
  show 1 * 65536 + BitVec.toNat _ ≠ 0 * 65536 + BitVec.toNat _
  omega

theorem witness_PortResult : system.allowed (.inp 15 (.ir 0)) = true ∧ system.allowed (.soutb 0xFFFF 0) = true ∧
    free.allowed (.sin 0 0) = true := by
  decide +kernel
theorem witness_BlockPortResult : system.allowed (.ini 4 2 3) = true ∧ system.allowed (.sotdrb 4 2 3 .f) = true ∧
    free.allowed (.inir 4 2 3 .nz) = true ∧ separate 4 2 3 = true ∧
    system.reaches .w (system.word 4) = true ∧ system.reaches .w (system.word 2) = true ∧ blockIoCondition .f = true ∧
    blockIoCondition .nz = true := by
  decide +kernel

theorem witness_FlagInstructionResult : system.allowed (.di 0) = true ∧ system.allowed (.ei 3) = true ∧
    State.allowed (.di 3) { user with cfg := { fullRevision with privSet := Config.privIo } } = true ∧
    FcwBits.ok user.cfg.fcwBits = true := by
  decide +kernel

theorem witness_MobLatch : system.allowed .mset = true ∧ system.allowed .mres = true ∧ free.allowed .mset = true ∧
    (∃ t, exec .mset system = .next t ∧ decide (t.mob ≠ system.mob) = true) ∧
    (let s := placeWords [0x7B08] 0x0100 system
     s.running = true ∧ ∃ t, step s = .next t ∧ decide (t.mob ≠ s.mob) = true) :=
  ⟨by decide +kernel, by decide +kernel, by decide +kernel, next_of_gives (by decide +kernel),
    ⟨by decide +kernel, next_of_gives (by decide +kernel)⟩⟩
theorem witness_MultiMicroResult : system.allowed .mbit = true ∧
    (takeMib { system with mib := [false] }).1 = false ∧ State.allowed (.mreq 0) { system with mib := [false] } = true ∧
    (takeMib { system with mib := [true] }).1 = true ∧ State.allowed (.mreq 15) { system with mib := [true] } = true := by
  decide +kernel

theorem witness_ControlRegisterResult :
    (system.allowed (.ldctlTo .fcw 0) = true ∧ system.allowed (.ldctlFrom 15 .nsp) = true) ∧ State.reset.cfg.rev = .rev1 ∧
    system.refresh.getLsbD 15 = false ∧
    (let s := { system with refresh := 0x8000 }
     s.allowed (.ldctlFrom 0 .refresh) = true ∧ s.cfg.rev = .full ∧ s.refresh.getLsbD 15 = true) ∧
    (system.allowed (.ldps (.da 0xFFFE)) = true ∧ system.memReady .w (.da 0xFFFE) = true) ∧
    (∃ t, exec (.ldctlTo .refresh 0) system = .next t ∧ decide (t.refresh ≠ system.refresh) = true) ∧
    (∃ t, exec (.ldctlTo .nsp 0) system = .next t ∧ decide (t.nsp ≠ system.nsp) = true) ∧
    ∃ t, exec (.ldk 15 1) user = .next t ∧ decide (t.nsp ≠ user.nsp) = true :=
  ⟨by decide +kernel, rfl, by decide +kernel, by decide +kernel, by decide +kernel, next_of_gives (by decide +kernel),
    next_of_gives (by decide +kernel), next_of_gives (by decide +kernel)⟩

/-- One word and sixteen words. -/
theorem witness_ExtendedResult : system.extendedRuns = true ∧ system.memReady .w (.da 0xFFFE) = true ∧
    (∃ ws rest, ({ system with epuIn := [1, 2] }).epuIn = ws ++ rest ∧ ws.length = (0#4).toNat + 1) ∧
    ∃ ws rest, ({ system with epuIn := List.replicate 17 7 }).epuIn = ws ++ rest ∧ ws.length = (15#4).toNat + 1 :=
  ⟨by decide +kernel, by decide +kernel, ⟨[1], [2], by decide, by decide⟩, ⟨List.replicate 16 7, [7], by decide, by decide⟩⟩

theorem witness_RefusedForms :
    (popSeparate .w 2 (.reg 2) = false ∧ popSeparate .w 2 (.mem (.x 0 2)) = false ∧ popSeparate .l 2 (.reg 2) = false ∧
      popSeparate .l 3 (.reg 2) = false ∧ popSeparate .l 2 (.mem (.ind 2)) = false) ∧
    (pairOk 2 = true ∧ srcOutsidePair 2 (.reg 2) = false ∧ srcOutsidePair 2 (.reg 3) = false) ∧
    (quadOk 4 = true ∧ srcOutsideQuad 4 (.reg 4) = false ∧ srcOutsideQuad 4 (.reg 6) = false) ∧
    (separate 2 2 3 = false ∧ separate 2 3 2 = false ∧ separate 3 2 2 = false ∧ blockLoadCondition .f = true ∧
      system.allowed (.ini 2 2 3) = true ∧ system.allowed (.otdrb 3 2 2 .z) = true ∧
      system.allowed (.inir 4 2 3 .ov) = true ∧ blockIoCondition .z = true) ∧
    separate (byteHome 10) 2 3 = false ∧ memAvoids 15 (.ind 15) = false ∧ memAvoids 15 (.x 0 15) = false ∧
    blockLoadCondition .z = false ∧ blockIoCondition .ov = false ∧
    (pairOk 15 = false ∧ system.srcReady .l (.reg 14) = true ∧ system.srcReady .l (.mem (.ind 2)) = true ∧
      system.ldReady .l (.reg 14) = true ∧ system.ldReady .l (.mem (.bx 2 4)) = true ∧
      system.reaches .l (system.pc + 0xFEFE) = true ∧ popSeparate .l 2 (.reg 15) = true ∧
      system.reaches .l (system.word 2) = true) ∧
    (pairOk 5 = false ∧ quadOk 4 = true ∧ srcOutsideQuad 4 (.reg 5) = true ∧ srcOutsideQuad 4 (.reg 15) = true) ∧
    quadOk 2 = false ∧ quadOk 15 = false := by
  decide +kernel

/-- The state `strict`; its copies that accept an interrupt, fetch a word that traps, and are in normal mode; and the even
pointers the clauses of a second access need. -/
theorem witness_OddAddressesFault :
    (strict.fetches = true ∧ strict.pc.getLsbD 0 = true ∧ strict.cfg.oddPc = .refuse) ∧
    (strict.entryReady = false ∧
     (let s := { strict with nmiPending := true }
      s.entryReady = false ∧ s.running = true ∧ s.request.isSome = true) ∧
     (let s := placeWords [0x7E00] 0x0100 { strict with pc := 0x0100 }
      s.entryReady = false ∧ s.fetches = true ∧ s.pcReady = true ∧
         (firstWordTrap (s.peekWord .prog (evenAddress s.pc)) s).isSome = true) ∧
     (let s := { user with regs := strict.regs }
      s.entryReady = false ∧ (privilegedWords .halt).isSome = true ∧ s.allowed .halt = false ∧
         (extendedWords (.epui 0 0 0 0)).isSome = true ∧ s.extendedRuns = false)) ∧
    (strict.memReady .w (.ind 1) = false ∧ strict.memReady .l (.ind 14) = false ∧
      strict.memReady .w (.da 0x0001) = false ∧ pairOk 14 = true ∧ quadOk 12 = true ∧
      strict.allowed (.ldps (.ind 1)) = true ∧
      (let s := { system with regs := strict.regs }
      s.extendedRuns = true ∧ s.memReady .w (.ind 1) = false)) ∧
    (strict.reaches .w (ldEA (.ba 14 0x0002) strict).2 = false ∧ strict.reaches .w (strict.pc + 0xFEFE) = false) ∧
    (strict.reaches .w (strict.word 15) = false ∧ strict.srcReady .w (.imm 0xFFFF) = true ∧
      strict.srcReady .w (.mem (.da 0xFFFE)) = true ∧ strict.dstReady .l (.reg 14) = true ∧
      popSeparate .w 15 (.reg 14) = true ∧ popSeparate .l 15 (.reg 12) = true ∧
      strict.reaches .w (strict.word 2) = true ∧ memAvoids 2 (.ind 1) = true ∧ condHolds .t strict.fcw = true ∧
      memAvoids 15 (.ind 14) = true ∧ strict.allowed .iret = true) ∧
    (separate 14 1 2 = true ∧ strict.reaches .w (strict.word 14) = false ∧ strict.reaches .w (strict.word 1) = false ∧
      separate 14 2 3 = true ∧ blockLoadCondition .f = true ∧ blockIoCondition .nz = true ∧
      strict.allowed (.outi 14 1 2) = true ∧ strict.allowed (.inir 14 2 3 .nz) = true) := by
  decide +kernel

end Sys2Proof.Machine.Tests
end

section
/-! Every step keeps the invariant and the parameters. Two relations between a state and a later one: `Stays`, for
everything that leaves the control byte of FCW and PSAP alone, which is nearly every operation; and `Keeps`, the claim
itself, for the operations that load FCW or PSAP: traps, interrupts, IRET, LDPS, LDCTL and reset. Each shared operation is
given its relation once, and an instruction is a chain of them. -/

namespace Sys2Proof.Machine

/-! ### The two relations -/

/-- SYS and EPA are as they were. -/
def SameMode (k k' : Fcw) : Prop := k'.sys = k.sys ∧ k'.epa = k.epa

theorem SameMode.refl (k : Fcw) : SameMode k k := ⟨rfl, rfl⟩

theorem SameMode.trans {k k' k'' : Fcw} (h : SameMode k k') (h' : SameMode k' k'') : SameMode k k'' :=
  ⟨h'.1.trans h.1, h'.2.trans h.2⟩

/-- From `s` to `t` nothing that the invariant reads changed, but for memory, which stays in canonical form. -/
structure Stays (s t : State) : Prop where
  cfg : t.cfg = s.cfg
  psap : t.psap = s.psap
  mode : SameMode s.fcw t.fcw
  mem : Memory.wf s.mem = true → Memory.wf t.mem = true

/-- From `s` to `t` the parameters did not change, and the invariant still holds if it held. -/
structure Keeps (s t : State) : Prop where
  cfg : t.cfg = s.cfg
  inv : s.Inv → t.Inv

theorem Stays.refl (s : State) : Stays s s := ⟨rfl, rfl, SameMode.refl _, id⟩

theorem Stays.trans {s t u : State} (h : Stays s t) (h' : Stays t u) : Stays s u :=
  ⟨h'.cfg.trans h.cfg, h'.psap.trans h.psap, h.mode.trans h'.mode, h'.mem ∘ h.mem⟩

theorem Keeps.trans {s t u : State} (h : Keeps s t) (h' : Keeps t u) : Keeps s u :=
  ⟨h'.cfg.trans h.cfg, h'.inv ∘ h.inv⟩

theorem Stays.keeps {s t : State} (h : Stays s t) : Keeps s t where
  cfg := h.cfg
  inv := fun ⟨hmem, hpsap, hmode, hbits⟩ =>
    ⟨h.mem hmem, h.psap ▸ hpsap, fun hrev => by
      obtain ⟨hsys, hepa⟩ := hmode (h.cfg ▸ hrev)
      exact ⟨h.mode.1.trans hsys, h.mode.2.trans hepa⟩, h.cfg ▸ hbits⟩

/-! ### What a computation gives, and where an outcome leads -/

/-- If the computation does not stop, its value has the property. -/
structure Gives {α : Type} (x : Comp α) (P : α → Prop) : Prop where
  of_ok : ∀ a, x = .ok a → P a

/-- If the outcome is a next state, that state has the property. -/
structure LeadsTo (o : Host.Outcome State Fault Refusal) (P : State → Prop) : Prop where
  of_next : ∀ t, o = .next t → P t

section
variable {α β : Type} {P : α → Prop} {Q : β → Prop} {x : Comp α} {f : α → Comp β} {s t : State}

theorem Gives.ok {a : α} (h : P a) : Gives (.ok a) P where
  of_ok := by
    rintro _ ⟨⟩
    exact h

theorem Gives.error {e : Stop} : Gives (.error e) P := ⟨nofun⟩

theorem Gives.mono {P' : α → Prop} (h : Gives x P) (hP : ∀ a, P a → P' a) : Gives x P' :=
  ⟨fun a e => hP a (h.of_ok a e)⟩

theorem Gives.bind (hx : Gives x P) (hf : ∀ a, P a → Gives (f a) Q) : Gives (x >>= f) Q := by
  cases x with
  | ok a => exact hf a (hx.of_ok a rfl)
  | error e => exact Gives.error

/-- The value of the first computation does not matter. -/
theorem Gives.bindAny (hf : ∀ a, Gives (f a) Q) : Gives (x >>= f) Q :=
  Gives.bind (P := fun _ => True) ⟨fun _ _ => trivial⟩ fun a _ => hf a

/-- One operation after another, on states. -/
theorem Gives.next {x : Comp State} {f : State → Comp State} (hx : Gives x (Stays s))
    (hf : ∀ t, Gives (f t) (Stays t)) : Gives (x >>= f) (Stays s) :=
  hx.bind fun t h => (hf t).mono fun _ => h.trans

/-- One operation after another, where the first also has a value. -/
theorem Gives.nextWith {x : Comp (β × State)} {f : β × State → Comp State} (hx : Gives x fun p => Stays s p.2)
    (hf : ∀ v t, Gives (f (v, t)) (Stays t)) : Gives (x >>= f) (Stays s) :=
  hx.bind fun (v, t) h => (hf v t).mono fun _ => h.trans

theorem Gives.map {g : α → β} (hx : Gives x P) (hg : ∀ a, P a → Q (g a)) : Gives (x.map g) Q := by
  cases x with
  | ok a => exact Gives.ok (hg a (hx.of_ok a rfl))
  | error e => exact Gives.error

/-- What goes on from a state that `s` led to goes on from `s`. -/
theorem Gives.after {x : Comp State} (hx : Gives x (Stays t)) (h : Stays s t) : Gives x (Stays s) :=
  hx.mono fun _ => h.trans

theorem Gives.keeps {x : Comp State} (hx : Gives x (Stays s)) : Gives x (Keeps s) := hx.mono fun _ => Stays.keeps

theorem Gives.leadsTo {x : Comp State} {P : State → Prop} (hx : Gives x P) : LeadsTo (answer x) P :=
  ⟨fun t e => hx.of_ok t (answer_next.1 e)⟩

/-- An instruction that leaves the control byte of FCW and PSAP alone. -/
theorem Gives.leadsToKeeps {x : Comp State} (hx : Gives x (Stays s)) : LeadsTo (answer x) (Keeps s) := hx.keeps.leadsTo

theorem LeadsTo.next {P : State → Prop} (h : P t) : LeadsTo (.next t) P where
  of_next := by
    rintro _ ⟨⟩
    exact h

theorem LeadsTo.after {o : Host.Outcome State Fault Refusal} (ho : LeadsTo o (Keeps t)) (h : Stays s t) :
    LeadsTo o (Keeps s) := ⟨fun u e => h.keeps.trans (ho.of_next u e)⟩

end

/-! ### Plain updates -/

section
variable {s t : State}

/-- An update of other fields than those the invariant reads. -/
theorem Stays.update {u : State} (h : Stays s t) (cfg : u.cfg = t.cfg := by rfl) (psap : u.psap = t.psap := by rfl)
    (fcw : u.fcw = t.fcw := by rfl) (mem : u.mem = t.mem := by rfl) : Stays s u :=
  h.trans ⟨cfg, psap, fcw ▸ SameMode.refl _, by rw [mem]; exact id⟩

theorem Stays.setFcw {k : Fcw} (h : Stays s t) (mode : SameMode s.fcw k) : Stays s (t.setFcw k) :=
  ⟨h.cfg, h.psap, mode, h.mem⟩

theorem Stays.setPc (h : Stays s t) (a : Word) : Stays s (t.setPc a) := h.update
theorem Stays.bumpFree (h : Stays s t) : Stays s t.bumpFree := h.update
theorem Stays.access (h : Stays s t) (odd : Option Word) (e : BusEvent) : Stays s (t.access odd e) := h.update
theorem Stays.note (h : Stays s t) (e : BusEvent) : Stays s (t.note e) := h.update
theorem Stays.setWord (h : Stays s t) (c : Reg) (v : Word) : Stays s (t.setWord c v) :=
  h.update (by simp) (by simp) (by simp) (by simp)
theorem Stays.setByte (h : Stays s t) (c : Reg) (v : Byte) : Stays s (t.setByte c v) := h.setWord _ _
theorem Stays.setLong (h : Stays s t) (c : Reg) (v : Long) : Stays s (t.setLong c v) :=
  (h.setWord _ _).setWord _ _
theorem Stays.setQuad (h : Stays s t) (c : Reg) (v : Quad) : Stays s (t.setQuad c v) :=
  (h.setLong _ _).setLong _ _
theorem Stays.intermediate (h : Stays s t) (cs : List Reg) : Stays s (t.intermediate cs) :=
  h.update (by simp) (by simp) (by simp) (by simp)

/-- A store keeps the canonical form of memory (R76). -/
theorem Stays.poke (h : Stays s t) (sp : Space) (a : Word) (v : Byte) : Stays s (t.poke sp a v) :=
  h.trans ⟨rfl, rfl, SameMode.refl _, t.poke_wf sp a v⟩

theorem Stays.putAt (h : Stays s t) (z : Size) (sp : Space) (a : Word) (v : BitVec z.bits) :
    Stays s (t.putAt z sp a v) := by
  cases z with
  | b => exact h.poke ..
  | w => exact (h.poke ..).poke ..
  | l => exact (((h.poke ..).poke ..).poke ..).poke ..

theorem Stays.discardRead (h : Stays s t) (sp : Space) (a : Word) : Stays s (discardRead sp a t) := h.note _

theorem Stays.takePins (h : Stays s t) : Stays s (takePins t).2 := by
  rw [takePins_snd]
  exact h.update

theorem Stays.takeMib (h : Stays s t) : Stays s (takeMib t).2 := by
  unfold Machine.takeMib
  split
  · exact h.bumpFree
  · exact h.update

theorem Stays.takePort (h : Stays s t) : Stays s (takePort t).2 := by
  unfold Machine.takePort
  split
  · exact h.bumpFree
  · exact h.update

theorem Stays.takeEpu (h : Stays s t) : Stays s (takeEpu t).2 := by
  unfold Machine.takeEpu
  split
  · exact h.bumpFree
  · exact h.update

theorem Stays.ioRead (h : Stays s t) (z : Size) (sp : IoSpace) (p : Word) : Stays s (ioRead z sp p t).2 := by
  cases z <;> exact h.takePort.note _

theorem Stays.ioWrite (h : Stays s t) (z : Size) (sp : IoSpace) (p : Word) (v : BitVec z.bits) :
    Stays s (ioWrite z sp p v t) := by
  cases z with
  | b => exact h.note _
  | w => exact h.note _
  | l => exact h

theorem Stays.stepPointer (h : Stays s t) (z : Size) (dir : Direction) (p : Reg) : Stays s (stepPointer z dir p t) := by
  cases dir <;> exact h.setWord _ _

theorem Stays.countDown (h : Stays s t) (r : Reg) : Stays s (countDown r t) := h.setWord _ _

theorem Stays.repeatUnless (h : Stays s t) (done : Bool) : Stays s (repeatUnless done t) := by
  cases done
  · exact h.update
  · exact h

theorem Stays.dividing (h : Stays s t) (cs : List Reg) (r : Division) : Stays s (t.dividing cs r) := by
  cases r with
  | byZero => exact h
  | fits | extended | overflow => exact h.intermediate cs

theorem Stays.latchNmi (h : Stays s t) (p : PinSample) : Stays s (latchNmi p t) := h.update

end

/-! ### Registers, memory and operands -/

section
variable (z : Size) (s : State)

theorem writeReg_stays (c : Reg) (v : BitVec z.bits) : Gives (writeReg z c v s) (Stays s) := by
  cases z with
  | b => exact Gives.ok ((Stays.refl s).setByte c v)
  | w => exact Gives.ok ((Stays.refl s).setWord c v)
  | l =>
    show Gives (if pairOk c then .ok (s.setLong c v) else .error (.refuse (.illegalPair c))) (Stays s)
    split
    · exact Gives.ok ((Stays.refl s).setLong c v)
    · exact Gives.error

theorem load_stays (sp : Space) (a : Word) : Gives (load z sp a s) fun p => Stays s p.2 := by
  refine ⟨fun (v, t) h => ?_⟩
  obtain ⟨-, -, bus, trace, rfl⟩ := load_ok h
  exact (Stays.refl s).update

theorem store_stays (sp : Space) (a : Word) (v : BitVec z.bits) : Gives (store z sp a v s) (Stays s) := by
  refine ⟨fun t h => ?_⟩
  obtain ⟨-, bus, trace, rfl⟩ := store_ok h
  exact ((Stays.refl s).putAt z sp a v).update

theorem readWordAs_stays (st : Status) (sp : Space) (a : Word) :
    Gives (readWordAs st sp a s) fun p => Stays s p.2 := by
  rw [readWordAs_eq]
  split
  · exact Gives.ok ((Stays.refl s).access _ _)
  · exact Gives.error

theorem writeWordAs_stays (st : Status) (sp : Space) (a v : Word) : Gives (writeWordAs st sp a v s) (Stays s) := by
  rw [writeWordAs_eq]
  split
  · exact Gives.ok (((Stays.refl s).putAt .w sp a v).access _ _)
  · exact Gives.error

theorem fetch_stays (st : Status) : Gives (fetch st s) fun p => Stays s p.2 := by
  rw [fetch_eq]
  split
  · exact Gives.ok (((Stays.refl s).note _).setPc _)
  · exact Gives.error

theorem push_stays (v : Word) : Gives (push v s) (Stays s) :=
  (store_stays .w _ _ _ v).after ((Stays.refl s).setWord 15 (s.word 15 - 2))

theorem pop_stays : Gives (pop s) fun p => Stays s p.2 :=
  (load_stays .w s _ _).bind fun (_, _) h => Gives.ok (h.setWord _ _)

theorem readSrc_stays (src : Src z) : Gives (readSrc z src s) fun p => Stays s p.2 := by
  cases src with
  | reg c => exact Gives.bindAny fun v => Gives.ok (Stays.refl s)
  | imm v => exact Gives.ok (Stays.refl s)
  | mem m => exact load_stays ..

theorem readDst_stays (d : Dst) : Gives (readDst z d s) fun p => Stays s p.2 := by
  cases d with
  | reg c => exact Gives.bindAny fun v => Gives.ok (Stays.refl s)
  | mem m => exact load_stays ..

theorem writeDst_stays (d : Dst) (v : BitVec z.bits) : Gives (writeDst z d v s) (Stays s) := by
  cases d with
  | reg c => exact writeReg_stays ..
  | mem m => exact store_stays ..

/-! ### The shared shapes: a flag rule that leaves the control byte alone makes an instruction that does -/

theorem modify_stays (d : Dst) (f : Unary z) (hf : ∀ v k, SameMode k (f v k).2) : Gives (modify z d f s) (Stays s) :=
  (readDst_stays ..).nextWith fun v t =>
    (writeDst_stays z t d _).bind fun _ h => Gives.ok (h.setFcw (hf v t.fcw))

theorem inspect_stays (d : Dst) (f : BitVec z.bits → Fcw → Fcw) (hf : ∀ v k, SameMode k (f v k)) :
    Gives (inspect z d f s) (Stays s) :=
  (readDst_stays ..).nextWith fun v t => Gives.ok ((Stays.refl t).setFcw (hf v t.fcw))

theorem binary_stays (d : Reg) (src : Src z) (f : Binary z) (hf : ∀ a b k, SameMode k (f a b k).2) :
    Gives (binary z d src f s) (Stays s) :=
  (readSrc_stays ..).nextWith fun b t => Gives.bindAny fun a =>
    (writeReg_stays z t d _).bind fun _ h => Gives.ok (h.setFcw (hf a b t.fcw))

theorem compare_stays (d : Reg) (src : Src z) (f : BitVec z.bits → BitVec z.bits → Fcw → Fcw)
    (hf : ∀ a b k, SameMode k (f a b k)) : Gives (compare z d src f s) (Stays s) :=
  (readSrc_stays ..).nextWith fun b t => Gives.bindAny fun a => Gives.ok ((Stays.refl t).setFcw (hf a b t.fcw))

theorem modifyReg_stays (d : Reg) (f : Unary z) (hf : ∀ v k, SameMode k (f v k).2) :
    Gives (modifyReg z d f s) (Stays s) :=
  Gives.bindAny fun v => (writeReg_stays z s d _).bind fun _ h => Gives.ok (h.setFcw (hf v s.fcw))

end

/-! ### Flag rules -/

section
variable (z : Size)

theorem decimalAdjust_mode (free : Nat) (v : Byte) (k : Fcw) : SameMode k (decimalAdjust free v k).2 := by
  unfold decimalAdjust
  split <;> exact ⟨rfl, rfl⟩

/-- The flags of a division come from the FCW that its intermediate results leave. -/
theorem division_mode {k k' : Fcw} (h : SameMode k k') (r : Division) : SameMode k (k'.division r) := by
  cases r <;> exact h

theorem shiftDynamic_mode (right : Shifting z.bits → Shifting z.bits) (rule : ShiftV) (count : Word)
    (v : BitVec z.bits) (k : Fcw) : SameMode k (shiftDynamic z right rule count v k).2 := by
  unfold shiftDynamic
  split
  · exact ⟨rfl, rfl⟩
  · split <;> exact ⟨rfl, rfl⟩

theorem shiftLeft_mode (n : Nat) (cfg : Cfg) (v : BitVec z.bits) (k : Fcw) :
    SameMode k (shiftLeft z n cfg v k).2 := by
  unfold shiftLeft
  split <;> exact ⟨rfl, rfl⟩

end

/-! ### Loads, stores and the stack -/

section
variable (z : Size) (s : State)

theorem exchange_stays (d : Reg) (src : Dst) : Gives (exchange z d src s) (Stays s) := by
  cases src with
  | reg c =>
    exact Gives.bindAny fun _ => Gives.bindAny fun _ => (writeReg_stays ..).next fun _ => writeReg_stays ..
  | mem m =>
    exact (load_stays ..).nextWith fun _ _ => Gives.bindAny fun _ =>
      (store_stays ..).next fun _ => writeReg_stays ..

theorem loadReg_stays (d : Reg) (src : LdSrc) : Gives (loadReg z d src s) (Stays s) := by
  cases src with
  | reg c => exact Gives.bindAny fun _ => writeReg_stays ..
  | mem m => exact (load_stays ..).nextWith fun _ _ => writeReg_stays ..

theorem storeReg_stays (m : LdMem) (c : Reg) : Gives (storeReg z m c s) (Stays s) :=
  Gives.bindAny fun _ => store_stays ..

theorem loadMany_stays (sp : Space) (n : Nat) (a : Word) (c : Reg) : Gives (loadMany sp n a c s) (Stays s) := by
  induction n generalizing a c s with
  | zero => exact Gives.ok (Stays.refl s)
  | succ n ih => exact (load_stays ..).nextWith fun v t => (ih ..).after ((Stays.refl t).setWord c v)

theorem storeMany_stays (sp : Space) (n : Nat) (a : Word) (c : Reg) : Gives (storeMany sp n a c s) (Stays s) := by
  induction n generalizing a c s with
  | zero => exact Gives.ok (Stays.refl s)
  | succ n ih => exact (store_stays ..).next fun _ => ih ..

theorem loadRelative_stays (d : Reg) (disp : Word) : Gives (loadRelative z d disp s) (Stays s) :=
  (load_stays ..).nextWith fun _ _ => writeReg_stays ..

theorem storeRelative_stays (disp : Word) (c : Reg) : Gives (storeRelative z disp c s) (Stays s) :=
  Gives.bindAny fun _ => store_stays ..

theorem popTo_stays (d : Dst) (sp : Reg) : Gives (popTo z d sp s) (Stays s) :=
  Gives.bindAny fun _ => (load_stays ..).nextWith fun _ t =>
    (writeDst_stays ..).after ((Stays.refl t).setWord _ _)

theorem pushValue_stays (sp : Reg) (v : BitVec z.bits) : Gives (pushValue z sp v s) (Stays s) :=
  (store_stays ..).after ((Stays.refl s).setWord _ _)

theorem testCondition_stays (cc : Cond) (d : Reg) : Gives (testCondition z cc d s) (Stays s) :=
  Gives.bindAny fun v => by
    split
    · exact writeReg_stays ..
    · exact Gives.ok (Stays.refl s)

theorem rotateDigits_stays (d c : Reg) (f : Byte → Byte → Byte × Byte) : Gives (rotateDigits d c f s) (Stays s) :=
  Gives.bindAny fun _ => Gives.ok ((((Stays.refl s).setByte d _).setByte c _).setFcw ⟨rfl, rfl⟩)

/-! ### Jumps and calls -/

theorem Stays.discardTarget {s t : State} (h : Stays s t) (m : Mem) : Stays s (discardTarget m t) := by
  cases m with
  | ind r => exact h.discardRead ..
  | da | x => exact h

theorem callTo_stays (a : Word) : Gives (callTo a s) (Stays s) :=
  (push_stays ..).next fun t => Gives.ok ((Stays.refl t).setPc a)

theorem decrementJump_stays (c : Reg) (e : BitVec 7) : Gives (decrementJump z c e s) (Stays s) :=
  Gives.bindAny fun v => (writeReg_stays ..).next fun t => by
    split
    · exact Gives.ok (Stays.refl t)
    · exact Gives.ok ((Stays.refl t).setPc _)

/-! ### Block instructions -/

variable (dir : Direction) (d p r : Reg) (cc : Cond)

theorem compareIter_stays : Gives (compareIter z dir d p r cc s) fun p => Stays s p.2 :=
  (load_stays z s _ _).bind fun (_, _) h => Gives.bindAny fun _ =>
    Gives.ok (((h.stepPointer z dir p).countDown r).setFcw h.mode)

theorem stringIter_stays : Gives (stringIter z dir d p r cc s) fun p => Stays s p.2 :=
  (load_stays z s _ _).bind fun (_, t) h => (load_stays z t _ _).bind fun (_, _) h' =>
    Gives.ok ((((h.trans h').stepPointer z dir p).stepPointer z dir d |>.countDown r).setFcw (h.trans h').mode)

theorem copyIter_stays : Gives (copyIter z dir d p r s) (Stays s) :=
  (load_stays ..).nextWith fun _ _ => (store_stays ..).next fun u =>
    have h := (((Stays.refl u).stepPointer z dir p).stepPointer z dir d).countDown r
    Gives.ok (h.setFcw h.mode)

theorem translateIter_stays : Gives (translateIter dir d p r s) (Stays s) :=
  (load_stays ..).nextWith fun _ _ => (load_stays ..).nextWith fun _ _ => (store_stays ..).next fun u =>
    have h := ((Stays.refl u).stepPointer .b dir d).countDown r
    Gives.ok (h.setFcw h.mode)

theorem translateTestIter_stays : Gives (translateTestIter dir d p r s) fun p => Stays s p.2 :=
  (load_stays .b s _ _).bind fun (_, t) h => (load_stays .b t _ _).bind fun (v, _) h' =>
    have h := (((h.trans h').setByte 1 v).stepPointer .b dir d).countDown r
    Gives.ok (h.setFcw h.mode)

theorem compareOnce_stays : Gives (compareOnce z dir d p r cc s) (Stays s) :=
  Gives.bindAny fun _ => (compareIter_stays ..).nextWith fun _ t => Gives.ok (Stays.refl t)

theorem compareRepeat_stays : Gives (compareRepeat z dir d p r cc s) (Stays s) :=
  Gives.bindAny fun _ => (compareIter_stays ..).nextWith fun _ t => Gives.ok ((Stays.refl t).repeatUnless _)

theorem stringOnce_stays : Gives (stringOnce z dir d p r cc s) (Stays s) :=
  Gives.bindAny fun _ => (stringIter_stays ..).nextWith fun _ t => Gives.ok (Stays.refl t)

theorem stringRepeat_stays : Gives (stringRepeat z dir d p r cc s) (Stays s) :=
  Gives.bindAny fun _ => (stringIter_stays ..).nextWith fun _ t => Gives.ok ((Stays.refl t).repeatUnless _)

theorem copyOnce_stays : Gives (copyOnce z dir d p r s) (Stays s) :=
  Gives.bindAny fun _ => copyIter_stays ..

theorem copyRepeat_stays : Gives (copyRepeat z dir d p r cc s) (Stays s) :=
  Gives.bindAny fun _ => Gives.bindAny fun _ => (copyIter_stays ..).next fun t =>
    Gives.ok ((Stays.refl t).repeatUnless _)

theorem translateOnce_stays : Gives (translateOnce dir d p r s) (Stays s) :=
  Gives.bindAny fun _ => translateIter_stays ..

theorem translateRepeat_stays : Gives (translateRepeat dir d p r s) (Stays s) :=
  Gives.bindAny fun _ => (translateIter_stays ..).next fun t => Gives.ok ((Stays.refl t).repeatUnless _)

theorem translateTestOnce_stays : Gives (translateTestOnce dir d p r s) (Stays s) :=
  Gives.bindAny fun _ => (translateTestIter_stays ..).nextWith fun _ t => Gives.ok (Stays.refl t)

theorem translateTestRepeat_stays : Gives (translateTestRepeat dir d p r s) (Stays s) :=
  Gives.bindAny fun _ => (translateTestIter_stays ..).nextWith fun _ t =>
    Gives.ok ((Stays.refl t).repeatUnless _)

/-! ### Ports, the Multi-micro line and the EPU -/

theorem input_stays (sp : IoSpace) (port : Word) : Gives (input z sp d port s) (Stays s) :=
  (writeReg_stays ..).after ((Stays.refl s).ioRead z sp port)

theorem output_stays (sp : IoSpace) (port : Word) (c : Reg) : Gives (output z sp port c s) (Stays s) :=
  Gives.bindAny fun v => Gives.ok ((Stays.refl s).ioWrite z sp port v)

theorem inputIter_stays (sp : IoSpace) : Gives (inputIter z sp dir d p r s) (Stays s) :=
  ((store_stays ..).after ((Stays.refl s).ioRead z sp _)).next fun t =>
    have h := ((Stays.refl t).stepPointer z dir d).countDown r
    Gives.ok (h.setFcw h.mode)

theorem outputIter_stays (sp : IoSpace) : Gives (outputIter z sp dir d p r s) (Stays s) :=
  (load_stays ..).nextWith fun v t =>
    have h := (((Stays.refl t).ioWrite z sp _ v).stepPointer z dir p).countDown r
    Gives.ok (h.setFcw h.mode)

/-- MREQ ends with Z, S and the Multi-micro Out latch (R873). -/
theorem Stays.answerRequest {s t : State} (h : Stays s t) (zero sign out : Bool) :
    Stays s { t with fcw := { t.fcw with z := zero, s := sign }, mob := out } :=
  h.trans ⟨rfl, rfl, ⟨rfl, rfl⟩, id⟩

theorem Stays.requestLine {s t : State} (h : Stays s t) (d : Reg) : Stays s (requestLine d t) :=
  ((h.intermediate [d]).setWord d 0).takeMib.answerRequest true _ _

theorem Stays.requestBlocked {s t : State} (h : Stays s t) : Stays s (requestBlocked t) :=
  h.answerRequest false false true

theorem multiMicroRequest_stays : Stays s (multiMicroRequest d s) := by
  have h := (Stays.refl s).takeMib
  unfold multiMicroRequest
  dsimp only
  split
  · exact h.requestLine d
  · exact h.requestBlocked

theorem epuToRegs_stays (n : Nat) : Stays s (epuToRegs n d s) := by
  induction n generalizing d s with
  | zero => exact Stays.refl s
  | succ n ih => exact (((Stays.refl s).takeEpu.note _).setWord d _).trans (ih ..)

theorem epuToMem_stays (sp : Space) (n : Nat) (a : Word) : Gives (epuToMem sp n a s) (Stays s) := by
  induction n generalizing a s with
  | zero => exact Gives.ok (Stays.refl s)
  | succ n ih => exact ((writeWordAs_stays ..).after (Stays.refl s).takeEpu).next fun _ => ih ..

theorem regsToEpu_stays (n : Nat) : Stays s (regsToEpu n d s) := by
  induction n generalizing d s with
  | zero => exact Stays.refl s
  | succ n ih => exact ((Stays.refl s).note _).trans (ih ..)

theorem memToEpu_stays (sp : Space) (n : Nat) (a : Word) : Gives (memToEpu sp n a s) (Stays s) := by
  induction n generalizing a s with
  | zero => exact Gives.ok (Stays.refl s)
  | succ n ih => exact (readWordAs_stays ..).nextWith fun _ _ => ih ..

theorem epuToFlags_stays : Stays s (epuToFlags s) :=
  have h := (Stays.refl s).takeEpu
  (h.note _).setFcw h.mode

end

/-! ### Loading FCW and PSAP: traps, interrupts, returns and reset -/

section
variable (s : State)

/-- `fcw_legal` forces SYS and EPA with `REV = Rev1` (R47). -/
theorem Fcw.legal_rev1 {cfg : Cfg} (h : cfg.rev = .rev1) (w : Word) :
    (Fcw.legal cfg w).sys = true ∧ (Fcw.legal cfg w).epa = false := by
  simp [Fcw.legal, h]

theorem setFcw_legal_keeps (w : Word) : Keeps s (s.setFcw (Fcw.legal s.cfg w)) :=
  ⟨rfl, fun ⟨hmem, hpsap, _, hbits⟩ => ⟨hmem, hpsap, fun hrev => Fcw.legal_rev1 hrev w, hbits⟩⟩

/-- The end of every load of the program status. -/
theorem setStatus_keeps (w a : Word) : Keeps s ((s.setFcw (Fcw.legal s.cfg w)).setPc a) :=
  (setFcw_legal_keeps s w).trans ((Stays.refl _).setPc a).keeps

/-- The entry sequence runs in system mode (R1010). -/
theorem setSys_keeps : Keeps s (s.setFcw { s.fcw with sys := true }) :=
  ⟨rfl, fun ⟨hmem, hpsap, hmode, hbits⟩ => ⟨hmem, hpsap, fun hrev => ⟨rfl, (hmode hrev).2⟩, hbits⟩⟩

theorem loadStatus_keeps (f p : Word) : Gives (loadStatus f p s) (Keeps s) :=
  (load_stays .w s _ _).bind fun (_, t) h => (load_stays .w t _ _).bind fun (_, u) h' =>
    Gives.ok ((h.trans h').keeps.trans (setStatus_keeps u _ _))

theorem enter_keeps (e : Event) (savedPc ident : Word) : Gives (enter e savedPc ident s) (Keeps s) :=
  (push_stays ..).bind fun _ h => (push_stays ..).bind fun _ h' => (push_stays ..).bind fun _ h'' =>
    (loadStatus_keeps ..).mono fun _ => ((setSys_keeps s).trans ((h.trans h').trans h'').keeps).trans

theorem leave_keeps : Gives (leave s) (Keeps s) :=
  (pop_stays _).bind fun (_, t) h => (pop_stays t).bind fun (_, u) h' =>
    Gives.ok (((((Stays.refl s).setWord _ _).trans h).trans h').keeps.trans (setStatus_keeps u _ _))

theorem loadProgramStatus_keeps (m : Mem) : Gives (loadProgramStatus m s) (Keeps s) :=
  (load_stays .w s _ _).bind fun (_, t) h => (load_stays .w t _ _).bind fun (_, u) h' =>
    Gives.ok ((h.trans h').keeps.trans (setStatus_keeps u _ _))

/-- LDCTL writes PSAP without its low byte (R43, R860). -/
theorem writeCtl_keeps (c : Ctl) (v : Word) : Keeps s (writeCtl c v s) := by
  cases c with
  | fcw => exact setFcw_legal_keeps s v
  | psap => exact ⟨rfl, fun ⟨hmem, _, hmode, hbits⟩ => ⟨hmem, loByte_append _ _, hmode, hbits⟩⟩
  | refresh | nsp => exact (Stays.refl s).update.keeps

theorem readCtl_stays (c : Ctl) : Stays s (readCtl c s).2 := by
  cases c with
  | refresh =>
    simp only [readCtl, readRefresh]
    split
    · exact (Stays.refl s).bumpFree
    · exact Stays.refl s
  | fcw | psap | nsp => exact Stays.refl s

/-- What an acknowledge clears before the entry sequence (R1010). -/
theorem Stays.acknowledged {s t : State} (h : Stays s t) (nmi : Bool) :
    Stays s { t with nmiPending := nmi, halted := false, repeating := false, freeCount := t.freeCount + 1 } := h.update

theorem interrupt_keeps (e : Event) (ident : Word) : Gives (interrupt e ident s) (Keeps s) :=
  (enter_keeps ..).mono fun _ => (((Stays.refl s).note _).note _ |>.acknowledged _).keeps.trans

/-- A reset of a state that differs from `s` in nothing that the invariant reads, PSAP apart. -/
theorem resetState_keeps {s u : State} (hcfg : u.cfg = s.cfg) (hfcw : u.fcw = s.fcw)
    (hmem : Memory.wf s.mem = true → Memory.wf u.mem = true) : Keeps s (resetState u) where
  cfg := hcfg
  inv := fun ⟨hwf, _, hmode, hbits⟩ =>
    ⟨hmem hwf, rfl, fun hrev => ⟨rfl, (congrArg Fcw.epa hfcw).trans (hmode (hcfg ▸ hrev)).2⟩,
      (congrArg (fun c => FcwBits.ok c.fcwBits) hcfg).trans hbits⟩

theorem resetSequence_keeps : Gives (resetSequence s) (Keeps s) :=
  (loadStatus_keeps ..).mono fun _ =>
    ((resetState_keeps rfl rfl id).trans (Stays.refl (resetState s)).update.keeps).trans

end

/-! ### Guarded instructions: the body runs, or a trap is entered -/

section
variable {s : State} {i : Instr} {words : Word} {body : State → Comp State} {d p r : Reg} {cc : Cond}

theorem privileged_keeps (h : Gives (body s) (Keeps s)) : Gives (privileged i words body s) (Keeps s) := by
  rw [privileged_eq]
  split
  · exact h
  · exact enter_keeps ..

theorem extended_keeps (h : Gives (body s) (Keeps s)) : Gives (extended words body s) (Keeps s) := by
  rw [extended_eq]
  split
  · exact h
  · exact enter_keeps ..

theorem ioOnce_keeps (h : Gives (body s) (Stays s)) : Gives (ioOnce i body d p r s) (Keeps s) :=
  privileged_keeps (Gives.bindAny fun _ => h.keeps)

theorem ioRepeat_keeps (h : Gives (body s) (Stays s)) : Gives (ioRepeat i body d p r cc s) (Keeps s) :=
  privileged_keeps (Gives.bindAny fun _ => Gives.bindAny fun _ =>
    (h.next fun t => Gives.ok ((Stays.refl t).repeatUnless _)).keeps)

end

/-! ### The instructions -/

section
variable (s : State)

theorem execDab_keeps (d : Reg) : LeadsTo (execDab d s) (Keeps s) :=
  LeadsTo.next ((((Stays.refl s).setByte d _).setFcw (decimalAdjust_mode ..)).bumpFree).keeps

theorem execDiv_keeps (d : Reg) (src : Src .w) : LeadsTo (execDiv d src s) (Keeps s) :=
  Gives.leadsToKeeps <| Gives.bindAny fun _ => Gives.bindAny fun _ => (readSrc_stays ..).nextWith fun _ t =>
    have h := (Stays.refl t).dividing _ _
    Gives.ok ((h.setLong d _).setFcw (division_mode h.mode _)).bumpFree

theorem execDivl_keeps (d : Reg) (src : Src .l) : LeadsTo (execDivl d src s) (Keeps s) :=
  Gives.leadsToKeeps <| Gives.bindAny fun _ => Gives.bindAny fun _ => (readSrc_stays ..).nextWith fun _ t =>
    have h := (Stays.refl t).dividing _ _
    Gives.ok ((h.setQuad d _).setFcw (division_mode h.mode _)).bumpFree

theorem execMult_keeps (d : Reg) (src : Src .w) : LeadsTo (execMult d src s) (Keeps s) :=
  Gives.leadsToKeeps <| Gives.bindAny fun _ => Gives.bindAny fun _ => (readSrc_stays ..).nextWith fun _ t =>
    Gives.ok ((((Stays.refl t).intermediate _).setLong d _).setFcw ⟨rfl, rfl⟩)

theorem execMultl_keeps (d : Reg) (src : Src .l) : LeadsTo (execMultl d src s) (Keeps s) :=
  Gives.leadsToKeeps <| Gives.bindAny fun _ => Gives.bindAny fun _ => (readSrc_stays ..).nextWith fun _ t =>
    Gives.ok ((((Stays.refl t).intermediate _).setQuad d _).setFcw ⟨rfl, rfl⟩)

theorem execJp_keeps (cc : Cond) (m : Mem) : LeadsTo (execJp cc m s) (Keeps s) := by
  unfold execJp
  split
  · exact LeadsTo.next (((Stays.refl s).discardTarget m).setPc _).keeps
  · exact LeadsTo.next (Stays.refl s).keeps

theorem execJr_keeps (cc : Cond) (e : BitVec 8) : LeadsTo (execJr cc e s) (Keeps s) := by
  unfold execJr
  split
  · exact LeadsTo.next ((Stays.refl s).setPc _).keeps
  · exact LeadsTo.next (Stays.refl s).keeps

theorem execRet_keeps (cc : Cond) : LeadsTo (execRet cc s) (Keeps s) := by
  refine Gives.leadsToKeeps ?_
  split
  · exact (pop_stays s).nextWith fun a t => Gives.ok ((Stays.refl t).setPc a)
  · exact Gives.ok (Stays.refl s)

/-- Every instruction keeps the invariant and the parameters: by the shape of its meaning. -/
theorem exec_keeps (i : Instr) : LeadsTo (exec i s) (Keeps s) := by
  cases i with dsimp only [exec]
  -- loads, stores and the stack
  | clr | clrb | ldImm | ldbImm => exact Gives.leadsToKeeps (writeDst_stays ..)
  | ex | exb => exact Gives.leadsToKeeps (exchange_stays ..)
  | ld | ldb | ldl => exact Gives.leadsToKeeps (loadReg_stays ..)
  | ldStore | ldbStore | ldlStore => exact Gives.leadsToKeeps (storeReg_stays ..)
  | ldbImmCompact | ldlImm | ldk => exact Gives.leadsToKeeps (writeReg_stays ..)
  | lda | ldar => exact Gives.leadsToKeeps ((writeReg_stays ..).after ((Stays.refl s).discardRead ..))
  | ldmLoad => exact Gives.leadsToKeeps (loadMany_stays ..)
  | ldmStore => exact Gives.leadsToKeeps (storeMany_stays ..)
  | ldr | ldrb | ldrl => exact Gives.leadsToKeeps (loadRelative_stays ..)
  | ldrStore | ldrbStore | ldrlStore => exact Gives.leadsToKeeps (storeRelative_stays ..)
  | pop | popl => exact Gives.leadsToKeeps (popTo_stays ..)
  | pushw => exact Gives.leadsToKeeps ((readSrc_stays ..).nextWith fun _ _ => pushValue_stays ..)
  | pushl => exact Gives.leadsToKeeps ((readDst_stays ..).nextWith fun _ _ => pushValue_stays ..)
  -- arithmetic and logic
  | adc | adcb | sbc | sbcb | add | addb | addl | sub | subb | subl | and | andb | or | orb | xor | xorb =>
    exact Gives.leadsToKeeps (binary_stays _ _ _ _ _ fun _ _ _ => ⟨rfl, rfl⟩)
  | cp | cpb | cpl => exact Gives.leadsToKeeps (compare_stays _ _ _ _ _ fun _ _ _ => ⟨rfl, rfl⟩)
  | cpImm | cpbImm | test | testb | testl | bit | bitb | bitDyn | bitbDyn =>
    exact Gives.leadsToKeeps (inspect_stays _ _ _ _ fun _ _ => ⟨rfl, rfl⟩)
  | dec | decb | inc | incb | neg | negb | com | comb | resBit | resBitB | resBitDyn | resBitBDyn | setBit | setBitB
  | setBitDyn | setBitBDyn | tset | tsetb => exact Gives.leadsToKeeps (modify_stays _ _ _ _ fun _ _ => ⟨rfl, rfl⟩)
  | dab => exact execDab_keeps ..
  | div => exact execDiv_keeps ..
  | divl => exact execDivl_keeps ..
  | mult => exact execMult_keeps ..
  | multl => exact execMultl_keeps ..
  | extsb => exact LeadsTo.next ((Stays.refl s).setWord _ _).keeps
  | exts => exact Gives.leadsToKeeps (Gives.bindAny fun _ => Gives.ok ((Stays.refl s).setWord _ _))
  | extsl => exact Gives.leadsToKeeps (Gives.bindAny fun _ => Gives.ok ((Stays.refl s).setLong _ _))
  | tcc | tccb => exact Gives.leadsToKeeps (testCondition_stays ..)
  -- rotates and shifts
  | rl | rlb | rlc | rlcb | rr | rrb | rrc | rrcb | sra | srab | sral | srl | srlb | srll =>
    exact Gives.leadsToKeeps (modifyReg_stays _ _ _ _ fun _ _ => ⟨rfl, rfl⟩)
  | rldb | rrdb => exact Gives.leadsToKeeps (rotateDigits_stays ..)
  | sda | sdab | sdal | sdl | sdlb | sdll =>
    exact Gives.leadsToKeeps (modifyReg_stays _ _ _ _ (shiftDynamic_mode _ _ _ _))
  | sla | slab | slal | sll | sllb | slll => exact Gives.leadsToKeeps (modifyReg_stays _ _ _ _ (shiftLeft_mode _ _ _))
  -- program control
  | call m =>
    exact Gives.leadsToKeeps (Gives.bindAny fun _ => (callTo_stays ..).after ((Stays.refl s).discardTarget m))
  | calr => exact Gives.leadsToKeeps (callTo_stays ..)
  | djnz | dbjnz => exact Gives.leadsToKeeps (decrementJump_stays ..)
  | jp => exact execJp_keeps ..
  | jr => exact execJr_keeps ..
  | ret => exact execRet_keeps ..
  -- block and string instructions
  | cpd | cpdb | cpi | cpib => exact Gives.leadsToKeeps (compareOnce_stays ..)
  | cpdr | cpdrb | cpir | cpirb => exact Gives.leadsToKeeps (compareRepeat_stays ..)
  | cpsd | cpsdb | cpsi | cpsib => exact Gives.leadsToKeeps (stringOnce_stays ..)
  | cpsdr | cpsdrb | cpsir | cpsirb => exact Gives.leadsToKeeps (stringRepeat_stays ..)
  | ldd | lddb | ldi | ldib => exact Gives.leadsToKeeps (copyOnce_stays ..)
  | lddr | lddrb | ldir | ldirb => exact Gives.leadsToKeeps (copyRepeat_stays ..)
  | trdb | trib => exact Gives.leadsToKeeps (translateOnce_stays ..)
  | trdrb | trirb => exact Gives.leadsToKeeps (translateRepeat_stays ..)
  | trtdb | trtib => exact Gives.leadsToKeeps (translateTestOnce_stays ..)
  | trtdrb | trtirb => exact Gives.leadsToKeeps (translateTestRepeat_stays ..)
  -- input and output
  | inp | inpb | sin | sinb => exact Gives.leadsTo (privileged_keeps (input_stays ..).keeps)
  | outp | outpb | sout | soutb => exact Gives.leadsTo (privileged_keeps (output_stays ..).keeps)
  | ind | indb | sind | sindb | ini | inib | sini | sinib =>
    exact Gives.leadsTo (ioOnce_keeps (inputIter_stays ..))
  | indr | indrb | sindr | sindrb | inir | inirb | sinir | sinirb =>
    exact Gives.leadsTo (ioRepeat_keeps (inputIter_stays ..))
  | outd | outdb | soutd | soutdb | outi | outib | souti | soutib =>
    exact Gives.leadsTo (ioOnce_keeps (outputIter_stays ..))
  | otdr | otdrb | sotdr | sotdrb | otir | otirb | sotir | sotirb =>
    exact Gives.leadsTo (ioRepeat_keeps (outputIter_stays ..))
  -- CPU control
  | comflg | resflg | setflg | ldctlbTo => exact LeadsTo.next (Stays.keeps (Stays.setFcw (Stays.refl s) ⟨rfl, rfl⟩))
  | nop => exact LeadsTo.next (Stays.refl s).keeps
  | di | ei =>
    exact Gives.leadsTo (privileged_keeps (Gives.ok (Stays.keeps (Stays.setFcw (Stays.refl s) ⟨rfl, rfl⟩))))
  | halt | mset | mres => exact Gives.leadsTo (privileged_keeps (Gives.ok (Stays.refl s).update.keeps))
  | iret => exact Gives.leadsTo (privileged_keeps (leave_keeps s))
  | sc => exact Gives.leadsTo (enter_keeps ..)
  | ldctlTo => exact Gives.leadsTo (privileged_keeps (Gives.ok (writeCtl_keeps ..)))
  | ldctlFrom => exact Gives.leadsTo (privileged_keeps (Gives.ok ((readCtl_stays ..).setWord _ _).keeps))
  | ldctlbFrom => exact LeadsTo.next ((Stays.refl s).setByte _ _).keeps
  | ldps => exact Gives.leadsTo (privileged_keeps (loadProgramStatus_keeps ..))
  | mbit =>
    exact Gives.leadsTo (privileged_keeps (Gives.ok (Stays.keeps (Stays.setFcw (Stays.refl s).takeMib ⟨rfl, rfl⟩))))
  | mreq => exact Gives.leadsTo (privileged_keeps (Gives.ok (multiMicroRequest_stays ..).keeps))
  -- extended instructions
  | ldFromEpu => exact Gives.leadsTo (extended_keeps (Gives.ok (epuToRegs_stays ..).keeps))
  | ldFromEpuMem => exact Gives.leadsTo (extended_keeps (epuToMem_stays ..).keeps)
  | ldToEpu => exact Gives.leadsTo (extended_keeps (Gives.ok (regsToEpu_stays ..).keeps))
  | ldToEpuMem => exact Gives.leadsTo (extended_keeps (memToEpu_stays ..).keeps)
  | ldbFcwEpu => exact Gives.leadsTo (extended_keeps (Gives.ok (epuToFlags_stays s).keeps))
  | ldbEpuFcw | epui => exact Gives.leadsTo (extended_keeps (Gives.ok ((Stays.refl s).note _).keeps))

/-! ### The step -/

theorem fetchLater_stays : Gives (fetchLater s) fun p => Stays s p.2 :=
  (fetch_stays s _).bind fun (_, _) h => Gives.ok h.update

theorem fetchFirst_stays : Gives (fetchFirst s) fun p => Stays s p.2 :=
  (fetch_stays s _).bind fun (_, _) h => Gives.ok h.update

theorem fetchRest_more (k : Word → Decoding) :
    fetchRest (.more k) s = fetchLater s >>= fun p => fetchRest (k p.1) p.2 := by
  rw [fetchRest]
  cases fetchLater s <;> rfl

theorem fetchRest_stays (x : Decoding) : Gives (fetchRest x s) fun p => Stays s p.2 := by
  induction x generalizing s with
  | instr i => exact Gives.ok (Stays.refl s)
  | bad e => exact Gives.error
  | more k ih =>
    rw [fetchRest_more]
    exact (fetchLater_stays s).bind fun (w, t) h => (ih w t).mono fun _ => h.trans

theorem runInstruction_keeps : LeadsTo (runInstruction s) (Keeps s) := by
  unfold runInstruction
  split
  · exact Gives.leadsTo Gives.error
  next w t hw =>
    have h : Stays s t := (fetchFirst_stays s).of_ok _ hw
    split
    · exact (Gives.leadsTo (enter_keeps ..)).after h
    · split
      · exact Gives.leadsTo Gives.error
      next i u hu => exact (exec_keeps u i).after (h.trans ((fetchRest_stays t _).of_ok _ hu))

theorem resume_keeps : LeadsTo (resume s) (Keeps s) := by
  unfold resume
  split
  · exact (exec_keeps ..).after (Stays.refl s).update
  · exact (runInstruction_keeps _).after (Stays.refl s).update

theorem work_keeps (p : PinSample) : LeadsTo (work p s) (Keeps s) := by
  unfold work
  split
  · exact Gives.leadsTo ((resetSequence_keeps s).map fun t h => h.trans ((Stays.refl t).latchNmi p).keeps)
  · refine LeadsTo.after ?_ ((Stays.refl s).latchNmi p)
    dsimp only
    split
    · exact Gives.leadsTo (interrupt_keeps ..)
    · split
      · exact LeadsTo.next ((Stays.refl _).note _).keeps
      · split
        · exact resume_keeps _
        · exact runInstruction_keeps _

/-- A reset inside the step keeps the invariant whatever the abandoned instruction was doing. -/
theorem stepWith_keeps (p : PinSample) : LeadsTo (stepWith p s) (Keeps s) := by
  unfold stepWith
  split
  · exact work_keeps s p
  · exact LeadsTo.next (resetState_keeps rfl rfl id)
  · refine ⟨fun t h => ?_⟩
    obtain ⟨u, rfl, hcfg, -, hfcw, hmem, -⟩ := interruptedAfter_next h
    exact resetState_keeps hcfg hfcw hmem

theorem step_keeps : LeadsTo (step s) (Keeps s) :=
  (stepWith_keeps _ _).after (Stays.refl s).takePins

end

/-- Settles O5: every operation of a step is related to its state by `Stays` or `Keeps`, and the step is a chain of
them. -/
theorem stepKeepsInv : Obligations.StepKeepsInv := fun s t h =>
  have k := (step_keeps s).of_next t h
  ⟨k.cfg, k.inv⟩

end Sys2Proof.Machine
end

section
/-! FCW as a word, read bit by bit (R35, R41, R47), and the state after reset. -/

namespace Sys2Proof.Machine

/-! ### The word of FCW -/

/-- Each bit of the word of FCW comes from the one field that has this position; SEG and the unused bits have none. -/
theorem Fcw.toWord_getLsbD (p : FcwBits) (k : Fcw) {m : Nat} (h : m < 16) :
    (k.toWord p).getLsbD m =
      (k.sys && decide (m = p.sys) || k.epa && decide (m = p.epa) || k.vie && decide (m = 12) ||
        k.nvie && decide (m = 11) || k.c && decide (m = 7) || k.z && decide (m = 6) || k.s && decide (m = 5) ||
        k.v && decide (m = 4) || k.d && decide (m = p.d) || k.h && decide (m = p.h)) := by
  simp only [Fcw.toWord, BitVec.getLsbD_or, bitAt_getLsbD _ _ _ h, Bool.false_and, Bool.false_or]

/-- What `FcwBits.ok` says of the positions, as numbers (R35). -/
theorem FcwBits.ok_iff (p : FcwBits) : FcwBits.ok p = true ↔
    8 ≤ p.seg.val ∧ p.seg.val ≠ 11 ∧ p.seg.val ≠ 12 ∧ 8 ≤ p.sys.val ∧ p.sys.val ≠ 11 ∧ p.sys.val ≠ 12 ∧
    8 ≤ p.epa.val ∧ p.epa.val ≠ 11 ∧ p.epa.val ≠ 12 ∧ p.d.val < 4 ∧ p.h.val < 4 ∧
    p.seg.val ≠ p.sys.val ∧ p.seg.val ≠ p.epa.val ∧ p.sys.val ≠ p.epa.val ∧ p.d.val ≠ p.h.val := by
  simp [FcwBits.ok, Fin.ext_iff]

/-- No field stands at the position of SEG (R41). -/
theorem Fcw.toWord_seg (p : FcwBits) (k : Fcw) (h : FcwBits.ok p = true) : (k.toWord p).getLsbD p.seg = false := by
  rw [FcwBits.ok_iff] at h
  rw [Fcw.toWord_getLsbD p k p.seg.isLt]
  simp
  omega

/-- A write of FCW reads every field away from SEG (R41). -/
theorem Fcw.ofWord_congr (p : FcwBits) (h : FcwBits.ok p = true) {v w : Word}
    (e : ∀ m, m ≠ p.seg.val → v.getLsbD m = w.getLsbD m) : Fcw.ofWord p v = Fcw.ofWord p w := by
  rw [FcwBits.ok_iff] at h
  simp only [Fcw.ofWord, Fcw.mk.injEq]
  refine ⟨e _ ?_, e _ ?_, e _ ?_, e _ ?_, e _ ?_, e _ ?_, e _ ?_, e _ ?_, e _ ?_, e _ ?_⟩ <;> omega

/-- `fcw_legal` reads the word through its fields alone. -/
theorem Fcw.legal_congr (c : Cfg) {v w : Word} (e : Fcw.ofWord c.fcwBits v = Fcw.ofWord c.fcwBits w) :
    Fcw.legal c v = Fcw.legal c w := by
  simp only [Fcw.legal, e]

/-- Settles O18: no field of FCW stands at SEG, and no field is read from there. -/
theorem segReadsZero : Obligations.SegReadsZero := by
  refine ⟨Fcw.toWord_seg, fun c w h => Fcw.legal_congr c (Fcw.ofWord_congr _ h fun m hm => ?_)⟩
  by_cases hlt : m < 16
  · simp [hlt, hm]
  · rw [BitVec.getLsbD_of_ge _ _ (by omega), BitVec.getLsbD_of_ge _ _ (by omega)]

/-- The fields read back from the word that holds them (R47). -/
theorem Fcw.ofWord_toWord (p : FcwBits) (k : Fcw) (h : FcwBits.ok p = true) : Fcw.ofWord p (k.toWord p) = k := by
  rw [FcwBits.ok_iff] at h
  obtain ⟨-, -, -, hs8, hs11, hs12, he8, he11, he12, hd, hh, -, -, hse, hdh⟩ := h
  cases k
  simp only [Fcw.ofWord, Fcw.mk.injEq]
  refine ⟨?_, ?_, ?_, ?_, ?_, ?_, ?_, ?_, ?_, ?_⟩ <;>
    rw [Fcw.toWord_getLsbD _ _ (by omega), Bool.eq_iff_iff] <;> simp <;> grind

/-- At the default positions: what a word written with `REV = Full` leaves (R42, R47). -/
theorem Fcw.toWord_ofWord_default (w : Word) :
    (Fcw.ofWord Config.fcwBits w).toWord Config.fcwBits = w &&& 0x78FC := by
  refine BitVec.eq_of_getLsbD_eq fun m hm => ?_
  rw [Fcw.toWord_getLsbD _ _ hm]
  interval_cases m <;> simp [Fcw.ofWord, Config.fcwBits]

/-- With `REV = Rev1` SYS reads 1 and EPA 0 whatever was written (R47). -/
theorem Fcw.toWord_forced_default (w : Word) :
    ({ Fcw.ofWord Config.fcwBits w with sys := true, epa := false } : Fcw).toWord Config.fcwBits =
      (w &&& 0x18FC) ||| 0x4000 := by
  refine BitVec.eq_of_getLsbD_eq fun m hm => ?_
  rw [Fcw.toWord_getLsbD _ _ hm]
  interval_cases m <;> simp [Fcw.ofWord, Config.fcwBits]

/-- A write of the flag byte: the control byte stays, the six flags are those written (R867). -/
theorem Fcw.toWord_withFlags_default (k : Fcw) (b : Byte) :
    (k.withFlags Config.fcwBits b).toWord Config.fcwBits =
      (k.toWord Config.fcwBits &&& 0xFF00) ||| (b.setWidth 16 &&& 0x00FC) := by
  refine BitVec.eq_of_getLsbD_eq fun m hm => ?_
  rw [BitVec.getLsbD_or, BitVec.getLsbD_and, Fcw.toWord_getLsbD _ _ hm, Fcw.toWord_getLsbD _ _ hm]
  interval_cases m <;> simp [Fcw.withFlags, Config.fcwBits]

/-- Settles O19, from the three round trips above. -/
theorem fcwWriteReadsBack : Obligations.FcwWriteReadsBack := by
  refine ⟨fun c w h => ⟨fun hrev => ?_, fun hrev => ?_⟩, fun c k h hrev => ?_, Fcw.toWord_withFlags_default⟩
  · rw [Fcw.legal, hrev, h]
    exact Fcw.toWord_ofWord_default w
  · rw [Fcw.legal, hrev, h]
    exact Fcw.toWord_forced_default w
  · rw [Fcw.legal, hrev]
    exact Fcw.ofWord_toWord c.fcwBits k h

/-- Settles O4: with `REV = Rev1` the FCW fetched from empty memory is that of system mode. -/
theorem resetInv : Obligations.ResetInv := ⟨rfl, rfl, fun _ => ⟨rfl, rfl⟩, rfl⟩

end Sys2Proof.Machine
end

section
/-! What an instruction leaves alone. One relation, `Within`, between a state and a later one says it for every
ordinary instruction, with the one destination register the instruction may have and whether it keeps the flags; a
second, `Spares`, says it for what loads FCW: traps, interrupts, IRET, LDPS and reset. -/

namespace Sys2Proof.Machine

/-! ### The relations -/

/-- The control bits of FCW that an ordinary instruction has no means to change (R38, R39, R40). -/
structure SameControl (k k' : Fcw) : Prop where
  sys : k'.sys = k.sys
  epa : k'.epa = k.epa
  vie : k'.vie = k.vie
  nvie : k'.nvie = k.nvie

theorem SameControl.refl (k : Fcw) : SameControl k k := ⟨rfl, rfl, rfl, rfl⟩

theorem SameControl.trans {k k' k'' : Fcw} (h : SameControl k k') (h' : SameControl k' k'') : SameControl k k'' :=
  ⟨h'.sys.trans h.sys, h'.epa.trans h.epa, h'.vie.trans h.vie, h'.nvie.trans h.nvie⟩

/-- FCW goes from `k` to `k'` with its control bits kept, and with its flags kept too when `flags` says so. -/
structure FlagRule (flags : Bool) (k k' : Fcw) : Prop where
  control : SameControl k k'
  kept : flags = true → k' = k

theorem FlagRule.same (flags : Bool) (k : Fcw) : FlagRule flags k k := ⟨SameControl.refl k, fun _ => rfl⟩

theorem FlagRule.changes {k k' : Fcw} (h : SameControl k k') : FlagRule false k k' := ⟨h, nofun⟩

/-- From `s` to `t` no special register, control bit or latch changed, nor the stack pointer of the other mode; the
flags are kept when `flags` says so; and with a destination `(z, c)` no other register and no memory changed. -/
structure Within (dest : Option (Size × Reg)) (flags : Bool) (s t : State) : Prop where
  fcw : FlagRule flags s.fcw t.fcw
  psap : t.psap = s.psap
  refresh : t.refresh = s.refresh
  mob : t.mob = s.mob
  halted : t.halted = s.halted
  nmiPending : t.nmiPending = s.nmiPending
  nsp : s.fcw.sys = true → t.nsp = s.nsp
  ssp : s.fcw.sys = false → t.regs[15] = s.regs[15]
  words : ∀ z c, dest = some (z, c) → ∀ r, regCovers z c r = false → t.word r = s.word r
  bytes : ∀ c, dest = some (.b, c) → ∀ b, b ≠ c → t.byte b = s.byte b
  mem : dest ≠ none → t.mem = s.mem

/-- From `s` to `t` no special register but FCW changed, nor a latch, nor, from system mode, NSP. -/
structure Spares (s t : State) : Prop where
  psap : t.psap = s.psap
  refresh : t.refresh = s.refresh
  mob : t.mob = s.mob
  halted : t.halted = s.halted
  nmiPending : t.nmiPending = s.nmiPending
  nsp : s.fcw.sys = true → t.nsp = s.nsp

/-- The destination `dest` lets an instruction write the register `c` of size `z`. -/
def Admits (dest : Option (Size × Reg)) (z : Size) (c : Reg) : Prop := dest = none ∨ dest = some (z, c)

theorem Admits.any (z : Size) (c : Reg) : Admits none z c := .inl rfl
theorem Admits.self (z : Size) (c : Reg) : Admits (some (z, c)) z c := .inr rfl

/-- The destination register of an operand that is written. -/
def dstTarget (z : Size) : Dst → Option (Size × Reg)
  | .reg c => some (z, c)
  | .mem _ => none

/-! ### Their rules -/

section
variable {dest : Option (Size × Reg)} {flags : Bool} {s t u : State}

theorem FlagRule.trans {k k' k'' : Fcw} (h : FlagRule flags k k') (h' : FlagRule flags k' k'') : FlagRule flags k k'' :=
  ⟨h.control.trans h'.control, fun e => (h'.kept e).trans (h.kept e)⟩

theorem Within.refl (s : State) : Within dest flags s s where
  fcw := FlagRule.same flags s.fcw
  psap := rfl
  refresh := rfl
  mob := rfl
  halted := rfl
  nmiPending := rfl
  nsp := fun _ => rfl
  ssp := fun _ => rfl
  words := fun _ _ _ _ _ => rfl
  bytes := fun _ _ _ _ => rfl
  mem := fun _ => rfl

theorem Within.trans (h : Within dest flags s t) (h' : Within dest flags t u) : Within dest flags s u where
  fcw := h.fcw.trans h'.fcw
  psap := h'.psap.trans h.psap
  refresh := h'.refresh.trans h.refresh
  mob := h'.mob.trans h.mob
  halted := h'.halted.trans h.halted
  nmiPending := h'.nmiPending.trans h.nmiPending
  nsp := fun e => (h'.nsp (h.fcw.control.sys.trans e)).trans (h.nsp e)
  ssp := fun e => (h'.ssp (h.fcw.control.sys.trans e)).trans (h.ssp e)
  words := fun z c e r hr => (h'.words z c e r hr).trans (h.words z c e r hr)
  bytes := fun c e b hb => (h'.bytes c e b hb).trans (h.bytes c e b hb)
  mem := fun e => (h'.mem e).trans (h.mem e)

theorem Within.spares (h : Within dest flags s t) : Spares s t :=
  ⟨h.psap, h.refresh, h.mob, h.halted, h.nmiPending, h.nsp⟩

theorem Spares.refl (s : State) : Spares s s := ⟨rfl, rfl, rfl, rfl, rfl, fun _ => rfl⟩

/-- `Spares` reads nothing of FCW in the later state, and nothing of PC. -/
theorem Spares.setFcw (h : Spares s t) (k : Fcw) : Spares s (t.setFcw k) :=
  ⟨h.psap, h.refresh, h.mob, h.halted, h.nmiPending, h.nsp⟩

theorem Spares.setStatus (h : Spares s t) (k : Fcw) (a : Word) : Spares s ((t.setFcw k).setPc a) :=
  ⟨h.psap, h.refresh, h.mob, h.halted, h.nmiPending, h.nsp⟩

/-- The entry sequence goes to system mode first (R1010). -/
theorem Spares.ofSystem (h : Spares (s.setFcw { s.fcw with sys := true }) t) : Spares s t :=
  ⟨h.psap, h.refresh, h.mob, h.halted, h.nmiPending, fun _ => h.nsp rfl⟩

/-- An update of none of the fields that `Within` reads. -/
theorem Within.update (h : Within dest flags s t) (regs : u.regs = t.regs := by rfl) (nsp : u.nsp = t.nsp := by rfl)
    (fcw : u.fcw = t.fcw := by rfl) (psap : u.psap = t.psap := by rfl) (refresh : u.refresh = t.refresh := by rfl)
    (mem : u.mem = t.mem := by rfl) (mob : u.mob = t.mob := by rfl) (halted : u.halted = t.halted := by rfl)
    (nmi : u.nmiPending = t.nmiPending := by rfl) : Within dest flags s u := by
  have word (r : Reg) : u.word r = t.word r := by simp only [State.word, regs, nsp, fcw]
  refine h.trans ⟨fcw ▸ FlagRule.same flags _, psap, refresh, mob, halted, nmi, fun _ => nsp, fun _ => by rw [regs],
    fun _ _ _ r _ => word r, fun _ _ b _ => ?_, fun _ => mem⟩
  simp only [State.byte, word]

theorem Within.setFcw {k : Fcw} (h : Within dest flags s t) (hk : FlagRule flags s.fcw k) :
    Within dest flags s (t.setFcw k) where
  fcw := hk
  psap := h.psap
  refresh := h.refresh
  mob := h.mob
  halted := h.halted
  nmiPending := h.nmiPending
  nsp := h.nsp
  ssp := h.ssp
  mem := h.mem
  words := fun z c e r hr => by
    rw [← h.words z c e r hr]
    simp only [State.word, State.setFcw_fcw, State.setFcw_nsp, State.setFcw_regs, hk.control.sys, h.fcw.control.sys]
  bytes := fun c e b hb => by
    rw [← h.bytes c e b hb]
    simp only [State.byte, State.word, State.setFcw_fcw, State.setFcw_nsp, State.setFcw_regs, hk.control.sys,
      h.fcw.control.sys]

/-- FCW rebuilt from that of `t` with other flags. -/
theorem Within.changes {k : Fcw} (h : Within dest flags s t) (sys : k.sys = t.fcw.sys := by rfl)
    (epa : k.epa = t.fcw.epa := by rfl) (vie : k.vie = t.fcw.vie := by rfl) (nvie : k.nvie = t.fcw.nvie := by rfl) :
    FlagRule false s.fcw k := .changes (h.fcw.control.trans ⟨sys, epa, vie, nvie⟩)

/-- With no destination register, only the stack pointer of the other mode is to be looked at. -/
theorem Within.setWordAny (h : Within none flags s t) (c : Reg) (v : Word) : Within none flags s (t.setWord c v) :=
  h.trans ⟨by rw [State.setWord_fcw]; exact FlagRule.same .., by simp, by simp, by simp, by simp, by simp,
    (State.setWord_other_stack_pointer t c v).1, (State.setWord_other_stack_pointer t c v).2, nofun, nofun, nofun⟩

/-- A register write is two word writes at most. -/
theorem setReg_withinAny (z : Size) (c : Reg) (v : BitVec z.bits) (s : State) :
    Within none flags s (s.setReg z c v) := by
  cases z with
  | b | w => exact (Within.refl s).setWordAny _ _
  | l => exact ((Within.refl s).setWordAny _ _).setWordAny _ _

theorem State.setReg_mem (z : Size) (c : Reg) (v : BitVec z.bits) (s : State) : (s.setReg z c v).mem = s.mem := by
  cases z <;> simp [State.setReg]

theorem setReg_within (z : Size) (c : Reg) (v : BitVec z.bits) (s : State) (hd : Admits dest z c) :
    Within dest flags s (s.setReg z c v) := by
  obtain rfl | rfl := hd
  · exact setReg_withinAny z c v s
  · have h : Within none flags s (s.setReg z c v) := setReg_withinAny z c v s
    refine ⟨h.fcw, h.psap, h.refresh, h.mob, h.halted, h.nmiPending, h.nsp, h.ssp, ?_, ?_, fun _ => State.setReg_mem ..⟩
    · rintro _ _ ⟨⟩ r hr
      exact State.word_setReg_ne z c r v s hr
    · rintro _ ⟨⟩ b hb
      exact State.byte_setByte_ne s v hb

theorem Within.setReg (h : Within dest flags s t) {z : Size} {c : Reg} (hd : Admits dest z c) (v : BitVec z.bits) :
    Within dest flags s (t.setReg z c v) := h.trans (setReg_within z c v t hd)

theorem Within.setWord (h : Within dest flags s t) {c : Reg} (hd : Admits dest .w c) (v : Word) :
    Within dest flags s (t.setWord c v) := h.setReg hd v
theorem Within.setByte (h : Within dest flags s t) {c : Reg} (hd : Admits dest .b c) (v : Byte) :
    Within dest flags s (t.setByte c v) := h.setReg hd v
theorem Within.setLong (h : Within dest flags s t) {c : Reg} (hd : Admits dest .l c) (v : Long) :
    Within dest flags s (t.setLong c v) := h.setReg hd v
theorem Within.setQuad (h : Within none flags s t) (c : Reg) (v : Quad) : Within none flags s (t.setQuad c v) :=
  (h.setLong (.any ..) _).setLong (.any ..) _

theorem Within.setPc (h : Within dest flags s t) (a : Word) : Within dest flags s (t.setPc a) := h.update
theorem Within.bumpFree (h : Within dest flags s t) : Within dest flags s t.bumpFree := h.update
theorem Within.note (h : Within dest flags s t) (e : BusEvent) : Within dest flags s (t.note e) := h.update
theorem Within.intermediate (h : Within dest flags s t) (cs : List Reg) : Within dest flags s (t.intermediate cs) :=
  h.update

theorem Within.dividing (h : Within dest flags s t) (cs : List Reg) (r : Division) :
    Within dest flags s (t.dividing cs r) := by
  cases r with
  | byZero => exact h
  | fits | extended | overflow => exact h.intermediate cs

theorem Within.discardRead (h : Within dest flags s t) (sp : Space) (a : Word) :
    Within dest flags s (discardRead sp a t) := h.note _

/-- With no destination register, memory may change. -/
theorem Within.setMem (h : Within none flags s t) (m : Memory) : Within none flags s { t with mem := m } :=
  ⟨h.fcw, h.psap, h.refresh, h.mob, h.halted, h.nmiPending, h.nsp, h.ssp, nofun, nofun, nofun⟩

theorem Within.putAt (h : Within none flags s t) (z : Size) (sp : Space) (a : Word) (v : BitVec z.bits) :
    Within none flags s (t.putAt z sp a v) := by
  cases z with
  | b | w | l => exact h.setMem _

theorem Within.takeMib (h : Within dest flags s t) : Within dest flags s (takeMib t).2 := by
  unfold Machine.takeMib
  split
  · exact h.bumpFree
  · exact h.update

theorem Within.takePort (h : Within dest flags s t) : Within dest flags s (takePort t).2 := by
  unfold Machine.takePort
  split
  · exact h.bumpFree
  · exact h.update

theorem Within.takeEpu (h : Within dest flags s t) : Within dest flags s (takeEpu t).2 := by
  unfold Machine.takeEpu
  split
  · exact h.bumpFree
  · exact h.update

theorem Within.ioRead (h : Within dest flags s t) (z : Size) (sp : IoSpace) (p : Word) :
    Within dest flags s (ioRead z sp p t).2 := by
  cases z <;> exact h.takePort.note _

theorem Within.ioWrite (h : Within dest flags s t) (z : Size) (sp : IoSpace) (p : Word) (v : BitVec z.bits) :
    Within dest flags s (ioWrite z sp p v t) := by
  cases z with
  | b | w => exact h.note _
  | l => exact h

theorem Within.stepPointer (h : Within none flags s t) (z : Size) (dir : Direction) (p : Reg) :
    Within none flags s (stepPointer z dir p t) := by
  cases dir <;> exact h.setWordAny _ _

theorem Within.countDown (h : Within none flags s t) (r : Reg) : Within none flags s (countDown r t) := h.setWordAny _ _

theorem Within.repeatUnless (h : Within dest flags s t) (done : Bool) : Within dest flags s (repeatUnless done t) := by
  cases done
  · exact h.update
  · exact h

theorem Within.discardTarget (h : Within dest flags s t) (m : Mem) : Within dest flags s (discardTarget m t) := by
  cases m with
  | ind r => exact h.discardRead ..
  | da | x => exact h

/-! ### One operation after another -/

variable {α β : Type}

theorem Gives.within {x : Comp State} (hx : Gives x (Within dest flags t)) (h : Within dest flags s t) :
    Gives x (Within dest flags s) := hx.mono fun _ => h.trans

theorem Gives.thenWithin {x : Comp State} {f : State → Comp State} (hx : Gives x (Within dest flags s))
    (hf : ∀ t, Gives (f t) (Within dest flags t)) : Gives (x >>= f) (Within dest flags s) :=
  hx.bind fun t h => (hf t).within h

theorem Gives.valueWithin {x : Comp (β × State)} {f : β × State → Comp State}
    (hx : Gives x fun p => Within dest flags s p.2) (hf : ∀ v t, Gives (f (v, t)) (Within dest flags t)) :
    Gives (x >>= f) (Within dest flags s) :=
  hx.bind fun (v, t) h => (hf v t).within h

end

/-! ### Registers, memory and operands -/

section
variable {dest : Option (Size × Reg)} {flags : Bool} (z : Size) (s : State)

theorem writeReg_within (c : Reg) (v : BitVec z.bits) (hd : Admits dest z c) :
    Gives (writeReg z c v s) (Within dest flags s) := by
  rw [writeReg_eq]
  split
  · exact Gives.ok (setReg_within z c v s hd)
  · exact Gives.error

theorem load_within (sp : Space) (a : Word) : Gives (load z sp a s) fun p => Within dest flags s p.2 := by
  refine ⟨fun (v, t) h => ?_⟩
  obtain ⟨-, -, bus, trace, rfl⟩ := load_ok h
  exact (Within.refl s).update

theorem store_within (sp : Space) (a : Word) (v : BitVec z.bits) : Gives (store z sp a v s) (Within none flags s) := by
  refine ⟨fun t h => ?_⟩
  obtain ⟨-, bus, trace, rfl⟩ := store_ok h
  exact ((Within.refl s).putAt z sp a v).update

theorem readWordAs_within (st : Status) (sp : Space) (a : Word) :
    Gives (readWordAs st sp a s) fun p => Within dest flags s p.2 := by
  rw [readWordAs_eq]
  split
  · exact Gives.ok (Within.refl s).update
  · exact Gives.error

theorem writeWordAs_within (st : Status) (sp : Space) (a v : Word) :
    Gives (writeWordAs st sp a v s) (Within none flags s) := by
  rw [writeWordAs_eq]
  split
  · exact Gives.ok ((Within.refl s).putAt .w sp a v).update
  · exact Gives.error

theorem push_within (v : Word) : Gives (push v s) (Within none flags s) :=
  (store_within .w _ _ _ v).within ((Within.refl s).setWordAny 15 (s.word 15 - 2))

theorem pop_within : Gives (pop s) fun p => Within none flags s p.2 :=
  (load_within .w s _ _).bind fun (_, _) h => Gives.ok (h.setWordAny _ _)

theorem readSrc_within (src : Src z) : Gives (readSrc z src s) fun p => Within dest flags s p.2 := by
  cases src with
  | reg c => exact Gives.bindAny fun v => Gives.ok (Within.refl s)
  | imm v => exact Gives.ok (Within.refl s)
  | mem m => exact load_within ..

theorem readDst_within (d : Dst) : Gives (readDst z d s) fun p => Within dest flags s p.2 := by
  cases d with
  | reg c => exact Gives.bindAny fun v => Gives.ok (Within.refl s)
  | mem m => exact load_within ..

theorem writeDst_within (d : Dst) (v : BitVec z.bits) : Gives (writeDst z d v s) (Within (dstTarget z d) flags s) := by
  cases d with
  | reg c => exact writeReg_within z s c v (.self z c)
  | mem m => exact store_within ..

/-- An operand written by an instruction with more destinations than that. -/
theorem writeDst_withinAny (d : Dst) (v : BitVec z.bits) : Gives (writeDst z d v s) (Within none flags s) := by
  cases d with
  | reg c => exact writeReg_within z s c v (.any z c)
  | mem m => exact store_within ..

/-! ### The shared shapes -/

theorem modify_within (d : Dst) (f : Unary z) (hf : ∀ v k, FlagRule flags k (f v k).2) :
    Gives (modify z d f s) (Within (dstTarget z d) flags s) :=
  (readDst_within ..).valueWithin fun v t =>
    (writeDst_within z t d _).bind fun _ h => Gives.ok (h.setFcw (hf v t.fcw))

theorem inspect_within (d : Dst) (f : BitVec z.bits → Fcw → Fcw) (hf : ∀ v k, FlagRule flags k (f v k)) :
    Gives (inspect z d f s) (Within dest flags s) :=
  (readDst_within ..).valueWithin fun v t => Gives.ok ((Within.refl t).setFcw (hf v t.fcw))

theorem binary_within (d : Reg) (src : Src z) (f : Binary z) (hf : ∀ a b k, FlagRule flags k (f a b k).2) :
    Gives (binary z d src f s) (Within (some (z, d)) flags s) :=
  (readSrc_within ..).valueWithin fun b t => Gives.bindAny fun a =>
    (writeReg_within z t d _ (.self z d)).bind fun _ h => Gives.ok (h.setFcw (hf a b t.fcw))

theorem compare_within (d : Reg) (src : Src z) (f : BitVec z.bits → BitVec z.bits → Fcw → Fcw)
    (hf : ∀ a b k, FlagRule flags k (f a b k)) : Gives (compare z d src f s) (Within dest flags s) :=
  (readSrc_within ..).valueWithin fun b t => Gives.bindAny fun a =>
    Gives.ok ((Within.refl t).setFcw (hf a b t.fcw))

theorem modifyReg_within (d : Reg) (f : Unary z) (hf : ∀ v k, FlagRule flags k (f v k).2) :
    Gives (modifyReg z d f s) (Within (some (z, d)) flags s) :=
  Gives.bindAny fun v => (writeReg_within z s d _ (.self z d)).bind fun _ h => Gives.ok (h.setFcw (hf v s.fcw))

end

/-! ### Flag rules -/

section
variable (z : Size)

theorem decimalAdjust_rule (free : Nat) (v : Byte) (k : Fcw) : FlagRule false k (decimalAdjust free v k).2 := by
  unfold decimalAdjust
  split <;> exact .changes ⟨rfl, rfl, rfl, rfl⟩

theorem division_rule {k k' : Fcw} (h : SameControl k k') (r : Division) : FlagRule false k (k'.division r) := by
  cases r <;> exact .changes ⟨h.sys, h.epa, h.vie, h.nvie⟩

theorem shiftDynamic_rule (right : Shifting z.bits → Shifting z.bits) (rule : ShiftV) (count : Word)
    (v : BitVec z.bits) (k : Fcw) : FlagRule false k (shiftDynamic z right rule count v k).2 := by
  unfold shiftDynamic
  split
  · exact .changes ⟨rfl, rfl, rfl, rfl⟩
  · split <;> exact .changes ⟨rfl, rfl, rfl, rfl⟩

theorem shiftLeft_rule (n : Nat) (cfg : Cfg) (v : BitVec z.bits) (k : Fcw) :
    FlagRule false k (shiftLeft z n cfg v k).2 := by
  unfold shiftLeft
  split <;> exact .changes ⟨rfl, rfl, rfl, rfl⟩

end

/-! ### Loads, stores and the stack -/

section
variable {flags : Bool} (z : Size) (s : State)

theorem exchange_within (d : Reg) (src : Dst) : Gives (exchange z d src s) (Within none flags s) := by
  cases src with
  | reg c =>
    exact Gives.bindAny fun _ => Gives.bindAny fun _ =>
      (writeReg_within z s c _ (.any ..)).thenWithin fun t => writeReg_within z t d _ (.any ..)
  | mem m =>
    exact (load_within ..).valueWithin fun _ _ => Gives.bindAny fun _ =>
      (store_within ..).thenWithin fun t => writeReg_within z t d _ (.any ..)

theorem loadReg_within (d : Reg) (src : LdSrc) : Gives (loadReg z d src s) (Within (some (z, d)) flags s) := by
  cases src with
  | reg c => exact Gives.bindAny fun _ => writeReg_within z s d _ (.self z d)
  | mem m => exact (load_within ..).valueWithin fun _ t => writeReg_within z t d _ (.self z d)

theorem storeReg_within (m : LdMem) (c : Reg) : Gives (storeReg z m c s) (Within none flags s) :=
  Gives.bindAny fun _ => store_within ..

theorem loadMany_within (sp : Space) (n : Nat) (a : Word) (c : Reg) :
    Gives (loadMany sp n a c s) (Within none flags s) := by
  induction n generalizing a c s with
  | zero => exact Gives.ok (Within.refl s)
  | succ n ih => exact (load_within ..).valueWithin fun v t => (ih ..).within ((Within.refl t).setWordAny c v)

theorem storeMany_within (sp : Space) (n : Nat) (a : Word) (c : Reg) :
    Gives (storeMany sp n a c s) (Within none flags s) := by
  induction n generalizing a c s with
  | zero => exact Gives.ok (Within.refl s)
  | succ n ih => exact (store_within ..).thenWithin fun _ => ih ..

theorem loadRelative_within (d : Reg) (disp : Word) :
    Gives (loadRelative z d disp s) (Within (some (z, d)) flags s) :=
  (load_within ..).valueWithin fun _ t => writeReg_within z t d _ (.self z d)

theorem storeRelative_within (disp : Word) (c : Reg) : Gives (storeRelative z disp c s) (Within none flags s) :=
  Gives.bindAny fun _ => store_within ..

theorem popTo_within (d : Dst) (sp : Reg) : Gives (popTo z d sp s) (Within none flags s) :=
  Gives.bindAny fun _ => (load_within ..).valueWithin fun _ t =>
    (writeDst_withinAny ..).within ((Within.refl t).setWordAny _ _)

theorem pushValue_within (sp : Reg) (v : BitVec z.bits) : Gives (pushValue z sp v s) (Within none flags s) :=
  (store_within ..).within ((Within.refl s).setWordAny _ _)

theorem testCondition_within (cc : Cond) (d : Reg) :
    Gives (testCondition z cc d s) (Within (some (z, d)) flags s) :=
  Gives.bindAny fun v => by
    split
    · exact writeReg_within z s d _ (.self z d)
    · exact Gives.ok (Within.refl s)

theorem rotateDigits_within (d c : Reg) (f : Byte → Byte → Byte × Byte) :
    Gives (rotateDigits d c f s) (Within none false s) :=
  Gives.bindAny fun _ => Gives.ok
    ((((Within.refl s).setByte (.any ..) _).setByte (.any ..) _).setFcw (.changes ⟨rfl, rfl, rfl, rfl⟩))

/-! ### Jumps and calls -/

theorem callTo_within (a : Word) : Gives (callTo a s) (Within none flags s) :=
  (push_within ..).thenWithin fun t => Gives.ok ((Within.refl t).setPc a)

theorem decrementJump_within (c : Reg) (e : BitVec 7) :
    Gives (decrementJump z c e s) (Within (some (z, c)) flags s) :=
  Gives.bindAny fun v => (writeReg_within z s c _ (.self z c)).thenWithin fun t => by
    split
    · exact Gives.ok (Within.refl t)
    · exact Gives.ok ((Within.refl t).setPc _)

/-! ### Block instructions -/

variable (dir : Direction) (d p r : Reg) (cc : Cond)

theorem compareIter_within : Gives (compareIter z dir d p r cc s) fun p => Within none false s p.2 :=
  (load_within z s _ _).bind fun (_, _) h => Gives.bindAny fun _ =>
    Gives.ok (((h.stepPointer z dir p).countDown r).setFcw h.changes)

theorem stringIter_within : Gives (stringIter z dir d p r cc s) fun p => Within none false s p.2 :=
  (load_within z s _ _).bind fun (_, t) h => (load_within z t _ _).bind fun (_, _) h' =>
    have h'' := h.trans h'
    Gives.ok ((((h''.stepPointer z dir p).stepPointer z dir d).countDown r).setFcw h''.changes)

theorem copyIter_within : Gives (copyIter z dir d p r s) (Within none false s) :=
  (load_within ..).valueWithin fun _ _ => (store_within ..).thenWithin fun u =>
    have h := (((Within.refl u).stepPointer z dir p).stepPointer z dir d).countDown r
    Gives.ok (h.setFcw h.changes)

theorem translateIter_within : Gives (translateIter dir d p r s) (Within none false s) :=
  (load_within ..).valueWithin fun _ _ => (load_within ..).valueWithin fun _ _ => (store_within ..).thenWithin fun u =>
    have h := ((Within.refl u).stepPointer .b dir d).countDown r
    Gives.ok (h.setFcw h.changes)

theorem translateTestIter_within : Gives (translateTestIter dir d p r s) fun p => Within none false s p.2 :=
  (load_within .b s _ _).bind fun (_, t) h => (load_within .b t _ _).bind fun (v, _) h' =>
    have h := (((h.trans h').setByte (.any ..) v).stepPointer .b dir d).countDown r
    Gives.ok (h.setFcw h.changes)

theorem compareOnce_within : Gives (compareOnce z dir d p r cc s) (Within none false s) :=
  Gives.bindAny fun _ => (compareIter_within ..).valueWithin fun _ t => Gives.ok (Within.refl t)

theorem compareRepeat_within : Gives (compareRepeat z dir d p r cc s) (Within none false s) :=
  Gives.bindAny fun _ => (compareIter_within ..).valueWithin fun _ t => Gives.ok ((Within.refl t).repeatUnless _)

theorem stringOnce_within : Gives (stringOnce z dir d p r cc s) (Within none false s) :=
  Gives.bindAny fun _ => (stringIter_within ..).valueWithin fun _ t => Gives.ok (Within.refl t)

theorem stringRepeat_within : Gives (stringRepeat z dir d p r cc s) (Within none false s) :=
  Gives.bindAny fun _ => (stringIter_within ..).valueWithin fun _ t => Gives.ok ((Within.refl t).repeatUnless _)

theorem copyOnce_within : Gives (copyOnce z dir d p r s) (Within none false s) :=
  Gives.bindAny fun _ => copyIter_within ..

theorem copyRepeat_within : Gives (copyRepeat z dir d p r cc s) (Within none false s) :=
  Gives.bindAny fun _ => Gives.bindAny fun _ => (copyIter_within ..).thenWithin fun t =>
    Gives.ok ((Within.refl t).repeatUnless _)

theorem translateOnce_within : Gives (translateOnce dir d p r s) (Within none false s) :=
  Gives.bindAny fun _ => translateIter_within ..

theorem translateRepeat_within : Gives (translateRepeat dir d p r s) (Within none false s) :=
  Gives.bindAny fun _ => (translateIter_within ..).thenWithin fun t => Gives.ok ((Within.refl t).repeatUnless _)

theorem translateTestOnce_within : Gives (translateTestOnce dir d p r s) (Within none false s) :=
  Gives.bindAny fun _ => (translateTestIter_within ..).valueWithin fun _ t => Gives.ok (Within.refl t)

theorem translateTestRepeat_within : Gives (translateTestRepeat dir d p r s) (Within none false s) :=
  Gives.bindAny fun _ => (translateTestIter_within ..).valueWithin fun _ t =>
    Gives.ok ((Within.refl t).repeatUnless _)

/-! ### Multiplication, division and sign extension -/

theorem execDab_within : LeadsTo (execDab d s) (Within (some (.b, d)) false s) :=
  LeadsTo.next (((Within.refl s).setByte (.self ..) _).setFcw (decimalAdjust_rule ..)).bumpFree

theorem execDiv_within (src : Src .w) : LeadsTo (execDiv d src s) (Within (some (.l, d)) false s) :=
  Gives.leadsTo <| Gives.bindAny fun _ => Gives.bindAny fun _ => (readSrc_within ..).valueWithin fun _ t =>
    have h := (Within.refl t).dividing _ _
    Gives.ok ((h.setLong (.self ..) _).setFcw (division_rule h.fcw.control _)).bumpFree

theorem execDivl_within (src : Src .l) : LeadsTo (execDivl d src s) (Within none false s) :=
  Gives.leadsTo <| Gives.bindAny fun _ => Gives.bindAny fun _ => (readSrc_within ..).valueWithin fun _ t =>
    have h := (Within.refl t).dividing _ _
    Gives.ok ((h.setQuad d _).setFcw (division_rule h.fcw.control _)).bumpFree

theorem execMult_within (src : Src .w) : LeadsTo (execMult d src s) (Within (some (.l, d)) false s) :=
  Gives.leadsTo <| Gives.bindAny fun _ => Gives.bindAny fun _ => (readSrc_within ..).valueWithin fun _ t =>
    have h := (Within.refl t).intermediate _
    Gives.ok ((h.setLong (.self ..) _).setFcw h.changes)

theorem execMultl_within (src : Src .l) : LeadsTo (execMultl d src s) (Within none false s) :=
  Gives.leadsTo <| Gives.bindAny fun _ => Gives.bindAny fun _ => (readSrc_within ..).valueWithin fun _ t =>
    have h := (Within.refl t).intermediate _
    Gives.ok ((h.setQuad d _).setFcw h.changes)

/-! ### Jumps and returns -/

theorem execJp_within (m : Mem) : LeadsTo (execJp cc m s) (Within none flags s) := by
  unfold execJp
  split
  · exact LeadsTo.next (((Within.refl s).discardTarget m).setPc _)
  · exact LeadsTo.next (Within.refl s)

theorem execJr_within (e : BitVec 8) : LeadsTo (execJr cc e s) (Within none flags s) := by
  unfold execJr
  split
  · exact LeadsTo.next ((Within.refl s).setPc _)
  · exact LeadsTo.next (Within.refl s)

theorem execRet_within : LeadsTo (execRet cc s) (Within none flags s) := by
  refine Gives.leadsTo ?_
  split
  · exact (pop_within s).valueWithin fun a t => Gives.ok ((Within.refl t).setPc a)
  · exact Gives.ok (Within.refl s)

end

/-! ### The ordinary instructions -/

/-- An ordinary instruction changes, of what `Within` reads, its own destination and, if it is not one that keeps them,
the flags (R20, R21, R24, R36, R1021): by the shape of its meaning. -/
theorem exec_within (i : Instr) (s : State) (hi : ordinary i = true) :
    LeadsTo (exec i s) (Within (target i) (keepsFlags i) s) := by
  cases i with dsimp only [exec, target, keepsFlags]
  -- loads, stores and the stack
  | clr dst | clrb dst | ldImm dst | ldbImm dst => cases dst <;> exact Gives.leadsTo (writeDst_within ..)
  | ex | exb => exact Gives.leadsTo (exchange_within ..)
  | ld | ldb | ldl => exact Gives.leadsTo (loadReg_within ..)
  | ldStore | ldbStore | ldlStore => exact Gives.leadsTo (storeReg_within ..)
  | ldbImmCompact | ldlImm | ldk => exact Gives.leadsTo (writeReg_within _ _ _ _ (.self ..))
  | lda | ldar => exact Gives.leadsTo ((writeReg_within _ _ _ _ (.self ..)).within ((Within.refl s).discardRead ..))
  | ldmLoad => exact Gives.leadsTo (loadMany_within ..)
  | ldmStore => exact Gives.leadsTo (storeMany_within ..)
  | ldr | ldrb | ldrl => exact Gives.leadsTo (loadRelative_within ..)
  | ldrStore | ldrbStore | ldrlStore => exact Gives.leadsTo (storeRelative_within ..)
  | pop | popl => exact Gives.leadsTo (popTo_within ..)
  | pushw => exact Gives.leadsTo ((readSrc_within ..).valueWithin fun _ _ => pushValue_within ..)
  | pushl => exact Gives.leadsTo ((readDst_within ..).valueWithin fun _ _ => pushValue_within ..)
  -- arithmetic and logic
  | adc | adcb | sbc | sbcb | add | addb | addl | sub | subb | subl | and | andb | or | orb | xor | xorb =>
    exact Gives.leadsTo (binary_within _ _ _ _ _ fun _ _ _ => .changes ⟨rfl, rfl, rfl, rfl⟩)
  | cp | cpb | cpl => exact Gives.leadsTo (compare_within _ _ _ _ _ fun _ _ _ => .changes ⟨rfl, rfl, rfl, rfl⟩)
  | cpImm | cpbImm | test | testb | testl | bit | bitb | bitDyn | bitbDyn =>
    exact Gives.leadsTo (inspect_within _ _ _ _ fun _ _ => .changes ⟨rfl, rfl, rfl, rfl⟩)
  | dec dst | decb dst | inc dst | incb dst | neg dst | negb dst | com dst | comb dst | tset dst | tsetb dst =>
    cases dst <;> exact Gives.leadsTo (modify_within _ _ _ _ fun _ _ => .changes ⟨rfl, rfl, rfl, rfl⟩)
  | resBit dst | resBitB dst | setBit dst | setBitB dst =>
    cases dst <;> exact Gives.leadsTo (modify_within _ _ _ _ fun _ k => .same _ k)
  | resBitDyn | resBitBDyn | setBitDyn | setBitBDyn =>
    exact Gives.leadsTo (modify_within _ _ _ _ fun _ k => .same _ k)
  | dab => exact execDab_within ..
  | div => exact execDiv_within ..
  | divl => exact execDivl_within ..
  | mult => exact execMult_within ..
  | multl => exact execMultl_within ..
  | extsb => exact LeadsTo.next ((Within.refl s).setWord (.self ..) _)
  | exts => exact Gives.leadsTo (Gives.bindAny fun _ => Gives.ok ((Within.refl s).setWord (.self ..) _))
  | extsl => exact Gives.leadsTo (Gives.bindAny fun _ => Gives.ok ((Within.refl s).setLong (.self ..) _))
  | tcc | tccb => exact Gives.leadsTo (testCondition_within ..)
  -- rotates and shifts
  | rl | rlb | rlc | rlcb | rr | rrb | rrc | rrcb | sra | srab | sral | srl | srlb | srll =>
    exact Gives.leadsTo (modifyReg_within _ _ _ _ fun _ _ => .changes ⟨rfl, rfl, rfl, rfl⟩)
  | rldb | rrdb => exact Gives.leadsTo (rotateDigits_within ..)
  | sda | sdab | sdal | sdl | sdlb | sdll =>
    exact Gives.leadsTo (modifyReg_within _ _ _ _ (shiftDynamic_rule _ _ _ _))
  | sla | slab | slal | sll | sllb | slll => exact Gives.leadsTo (modifyReg_within _ _ _ _ (shiftLeft_rule _ _ _))
  -- program control
  | call m =>
    exact Gives.leadsTo (Gives.bindAny fun _ => (callTo_within ..).within ((Within.refl s).discardTarget m))
  | calr => exact Gives.leadsTo (callTo_within ..)
  | djnz | dbjnz => exact Gives.leadsTo (decrementJump_within ..)
  | jp => exact execJp_within ..
  | jr => exact execJr_within ..
  | ret => exact execRet_within ..
  -- block and string instructions
  | cpd | cpdb | cpi | cpib => exact Gives.leadsTo (compareOnce_within ..)
  | cpdr | cpdrb | cpir | cpirb => exact Gives.leadsTo (compareRepeat_within ..)
  | cpsd | cpsdb | cpsi | cpsib => exact Gives.leadsTo (stringOnce_within ..)
  | cpsdr | cpsdrb | cpsir | cpsirb => exact Gives.leadsTo (stringRepeat_within ..)
  | ldd | lddb | ldi | ldib => exact Gives.leadsTo (copyOnce_within ..)
  | lddr | lddrb | ldir | ldirb => exact Gives.leadsTo (copyRepeat_within ..)
  | trdb | trib => exact Gives.leadsTo (translateOnce_within ..)
  | trdrb | trirb => exact Gives.leadsTo (translateRepeat_within ..)
  | trtdb | trtib => exact Gives.leadsTo (translateTestOnce_within ..)
  | trtdrb | trtirb => exact Gives.leadsTo (translateTestRepeat_within ..)
  -- flags
  | comflg | resflg | setflg | ldctlbTo =>
    exact LeadsTo.next ((Within.refl s).setFcw (.changes ⟨rfl, rfl, rfl, rfl⟩))
  | nop => exact LeadsTo.next (Within.refl s)
  | ldctlbFrom => exact LeadsTo.next ((Within.refl s).setByte (.self ..) _)
  | _ => cases hi

/-! ### Loading FCW: traps, returns and LDPS -/

section
variable (s : State)

theorem Spares.after {s t u : State} {dest : Option (Size × Reg)} {flags : Bool} (h' : Spares t u)
    (h : Within dest flags s t) : Spares s u :=
  ⟨h'.psap.trans h.psap, h'.refresh.trans h.refresh, h'.mob.trans h.mob, h'.halted.trans h.halted,
    h'.nmiPending.trans h.nmiPending, fun e => (h'.nsp (h.fcw.control.sys.trans e)).trans (h.nsp e)⟩

theorem loadStatus_spares (f p : Word) : Gives (loadStatus f p s) (Spares s) :=
  (load_within (dest := none) (flags := true) .w s _ _).bind fun (_, t) h =>
    (load_within .w t _ _).bind fun _ h' => Gives.ok ((h.trans h').spares.setStatus _ _)

theorem loadProgramStatus_spares (m : Mem) : Gives (loadProgramStatus m s) (Spares s) :=
  (load_within (dest := none) (flags := true) .w s _ _).bind fun (_, t) h =>
    (load_within .w t _ _).bind fun _ h' => Gives.ok ((h.trans h').spares.setStatus _ _)

/-- An entry sequence pushes on the system stack, then loads FCW and PC (R1010). -/
theorem enter_spares (e : Event) (savedPc ident : Word) : Gives (enter e savedPc ident s) (Spares s) :=
  (push_within (flags := true) ..).bind fun _ h => (push_within ..).bind fun _ h' => (push_within ..).bind fun _ h'' =>
    (loadStatus_spares ..).mono fun _ k => (k.after ((h.trans h').trans h'')).ofSystem

theorem leave_spares : Gives (leave s) (Spares s) :=
  (pop_within (flags := true) _).bind fun (_, t) h => (pop_within t).bind fun _ h' =>
    Gives.ok (((((Within.refl s).setWordAny 15 _).trans h).trans h').spares.setStatus _ _)

end

/-! ### Ports, the Multi-micro line, the control registers and the EPU -/

section
variable {flags : Bool} (z : Size) (s : State) (dir : Direction) (d p r : Reg)

theorem input_within (sp : IoSpace) (port : Word) : Gives (input z sp d port s) (Within none flags s) :=
  (writeReg_within z _ d _ (.any z d)).within ((Within.refl s).ioRead z sp port)

theorem output_within (sp : IoSpace) (port : Word) (c : Reg) : Gives (output z sp port c s) (Within none flags s) :=
  Gives.bindAny fun v => Gives.ok ((Within.refl s).ioWrite z sp port v)

theorem inputIter_within (sp : IoSpace) : Gives (inputIter z sp dir d p r s) (Within none false s) :=
  ((store_within ..).within ((Within.refl s).ioRead z sp _)).thenWithin fun t =>
    have h := ((Within.refl t).stepPointer z dir d).countDown r
    Gives.ok (h.setFcw h.changes)

theorem outputIter_within (sp : IoSpace) : Gives (outputIter z sp dir d p r s) (Within none false s) :=
  (load_within ..).valueWithin fun v t =>
    have h := (((Within.refl t).ioWrite z sp _ v).stepPointer z dir p).countDown r
    Gives.ok (h.setFcw h.changes)

theorem epuToRegs_within (n : Nat) : Within none flags s (epuToRegs n d s) := by
  induction n generalizing d s with
  | zero => exact Within.refl s
  | succ n ih => exact (((Within.refl s).takeEpu.note _).setWordAny d _).trans (ih ..)

theorem epuToMem_within (sp : Space) (n : Nat) (a : Word) : Gives (epuToMem sp n a s) (Within none flags s) := by
  induction n generalizing a s with
  | zero => exact Gives.ok (Within.refl s)
  | succ n ih => exact ((writeWordAs_within ..).within (Within.refl s).takeEpu).thenWithin fun _ => ih ..

theorem regsToEpu_within (n : Nat) : Within none flags s (regsToEpu n d s) := by
  induction n generalizing d s with
  | zero => exact Within.refl s
  | succ n ih => exact ((Within.refl s).note _).trans (ih ..)

theorem memToEpu_within (sp : Space) (n : Nat) (a : Word) : Gives (memToEpu sp n a s) (Within none flags s) := by
  induction n generalizing a s with
  | zero => exact Gives.ok (Within.refl s)
  | succ n ih => exact (readWordAs_within ..).valueWithin fun _ _ => ih ..

theorem epuToFlags_within : Within none false s (epuToFlags s) :=
  have h := (Within.refl s).takeEpu
  (h.note _).setFcw h.changes

theorem readCtl_within (c : Ctl) : Within none flags s (readCtl c s).2 := by
  cases c with
  | refresh =>
    simp only [readCtl, readRefresh]
    split
    · exact (Within.refl s).bumpFree
    · exact Within.refl s
  | fcw | psap | nsp => exact Within.refl s

end

/-! ### Which instruction a changed special register names -/

/-- The instructions that drive the Multi-micro Out latch (R51). -/
def DrivesMob (i : Instr) : Prop := i = .mset ∨ i = .mres ∨ ∃ d, i = .mreq d

/-- A special register that differs from `s` to `t` tells which instruction `i` was (R43, R44, R45, R51). -/
structure ChangedBy (i : Instr) (s t : State) : Prop where
  psap : t.psap ≠ s.psap → ∃ r, i = .ldctlTo .psap r
  refresh : t.refresh ≠ s.refresh → ∃ r, i = .ldctlTo .refresh r
  mob : t.mob ≠ s.mob → DrivesMob i
  nsp : t.nsp ≠ s.nsp → s.fcw.sys = false ∨ ∃ r, i = .ldctlTo .nsp r

section
variable {s t : State} {i : Instr} {words : Word} {body : State → Comp State} {d p r : Reg} {cc : Cond}

theorem Spares.changedBy (h : Spares s t) : ChangedBy i s t where
  psap := fun e => absurd h.psap e
  refresh := fun e => absurd h.refresh e
  mob := fun e => absurd h.mob e
  nsp := fun e => .inl (Bool.eq_false_iff.2 fun hs => e (h.nsp hs))

theorem Within.changedBy {dest : Option (Size × Reg)} {flags : Bool} (h : Within dest flags s t) : ChangedBy i s t :=
  h.spares.changedBy

/-- An instruction that drives the latch, and beyond that changes no special register but FCW. -/
theorem Spares.drives {k : Fcw} {out : Bool} (h : Spares s t) (hi : DrivesMob i) :
    ChangedBy i s { t with fcw := k, mob := out } :=
  ⟨h.changedBy.psap, h.changedBy.refresh, fun _ => hi, h.changedBy.nsp⟩

theorem writeCtl_changedBy (c : Ctl) (r : Reg) (v : Word) (s : State) :
    ChangedBy (.ldctlTo c r) s (writeCtl c v s) := by
  cases c with
  | fcw => exact ((Spares.refl s).setFcw _).changedBy
  | refresh => exact ⟨fun e => absurd rfl e, fun _ => ⟨r, rfl⟩, fun e => absurd rfl e, fun e => absurd rfl e⟩
  | psap => exact ⟨fun _ => ⟨r, rfl⟩, fun e => absurd rfl e, fun e => absurd rfl e, fun e => absurd rfl e⟩
  | nsp => exact ⟨fun e => absurd rfl e, fun e => absurd rfl e, fun e => absurd rfl e, fun _ => .inr ⟨r, rfl⟩⟩

theorem multiMicroRequest_changedBy (d : Reg) (s : State) : ChangedBy (.mreq d) s (multiMicroRequest d s) := by
  have h : Within none true s (takeMib s).2 := (Within.refl s).takeMib
  unfold multiMicroRequest
  dsimp only
  split
  · exact ((h.intermediate [d]).setWordAny d 0).takeMib.spares.drives (.inr (.inr ⟨d, rfl⟩))
  · exact h.spares.drives (.inr (.inr ⟨d, rfl⟩))

theorem Gives.changedBy {x : Comp State} {dest : Option (Size × Reg)} {flags : Bool}
    (h : Gives x (Within dest flags s)) : Gives x (ChangedBy i s) := h.mono fun _ => Within.changedBy

theorem enter_changedBy (e : Event) (savedPc ident : Word) : Gives (enter e savedPc ident s) (ChangedBy i s) :=
  (enter_spares ..).mono fun _ => Spares.changedBy

theorem privileged_changedBy (h : Gives (body s) (ChangedBy i s)) :
    LeadsTo (answer (privileged i words body s)) (ChangedBy i s) := by
  rw [privileged_eq]
  split
  · exact h.leadsTo
  · exact (enter_changedBy ..).leadsTo

theorem extended_changedBy {flags : Bool} (h : Gives (body s) (Within none flags s)) :
    LeadsTo (answer (extended words body s)) (ChangedBy i s) := by
  rw [extended_eq]
  split
  · exact h.changedBy.leadsTo
  · exact (enter_changedBy ..).leadsTo

theorem ioOnce_changedBy (h : Gives (body s) (Within none false s)) :
    LeadsTo (answer (ioOnce i body d p r s)) (ChangedBy i s) :=
  privileged_changedBy (Gives.bindAny fun _ => h.changedBy)

theorem ioRepeat_changedBy (h : Gives (body s) (Within none false s)) :
    LeadsTo (answer (ioRepeat i body d p r cc s)) (ChangedBy i s) :=
  privileged_changedBy (Gives.bindAny fun _ => Gives.bindAny fun _ =>
    (h.thenWithin fun t => Gives.ok ((Within.refl t).repeatUnless _)).changedBy)

end

/-- Whatever the instruction, a special register that it changed names it: the ordinary ones change none, and neither
does a trap. -/
theorem exec_changedBy (i : Instr) (s : State) : LeadsTo (exec i s) (ChangedBy i s) := by
  by_cases hi : ordinary i = true
  · exact ⟨fun t h => ((exec_within i s hi).of_next t h).changedBy⟩
  cases i with dsimp only [exec]
  -- input and output
  | inp | inpb | sin | sinb => exact privileged_changedBy (input_within (flags := true) ..).changedBy
  | outp | outpb | sout | soutb => exact privileged_changedBy (output_within (flags := true) ..).changedBy
  | ind | indb | sind | sindb | ini | inib | sini | sinib => exact ioOnce_changedBy (inputIter_within ..)
  | indr | indrb | sindr | sindrb | inir | inirb | sinir | sinirb => exact ioRepeat_changedBy (inputIter_within ..)
  | outd | outdb | soutd | soutdb | outi | outib | souti | soutib => exact ioOnce_changedBy (outputIter_within ..)
  | otdr | otdrb | sotdr | sotdrb | otir | otirb | sotir | sotirb => exact ioRepeat_changedBy (outputIter_within ..)
  -- CPU control
  | di | ei => exact privileged_changedBy (Gives.ok ((Spares.refl s).setFcw _).changedBy)
  | halt =>
    exact privileged_changedBy (Gives.ok
      ⟨fun e => absurd rfl e, fun e => absurd rfl e, fun e => absurd rfl e, fun e => absurd rfl e⟩)
  | mset => exact privileged_changedBy (Gives.ok ((Spares.refl s).drives (.inl rfl)))
  | mres => exact privileged_changedBy (Gives.ok ((Spares.refl s).drives (.inr (.inl rfl))))
  | mbit =>
    have h : Within none true s (takeMib s).2 := (Within.refl s).takeMib
    exact privileged_changedBy (Gives.ok (h.spares.setFcw _).changedBy)
  | mreq => exact privileged_changedBy (Gives.ok (multiMicroRequest_changedBy ..))
  | iret => exact privileged_changedBy ((leave_spares s).mono fun _ => Spares.changedBy)
  | sc => exact (enter_changedBy ..).leadsTo
  | ldctlTo => exact privileged_changedBy (Gives.ok (writeCtl_changedBy ..))
  | ldctlFrom => exact privileged_changedBy (Gives.ok ((readCtl_within s _ (flags := true)).setWordAny _ _)).changedBy
  | ldps => exact privileged_changedBy ((loadProgramStatus_spares ..).mono fun _ => Spares.changedBy)
  -- extended instructions
  | ldFromEpu => exact extended_changedBy (Gives.ok (epuToRegs_within (flags := true) ..))
  | ldFromEpuMem => exact extended_changedBy (epuToMem_within (flags := true) ..)
  | ldToEpu => exact extended_changedBy (Gives.ok (regsToEpu_within (flags := true) ..))
  | ldToEpuMem => exact extended_changedBy (memToEpu_within (flags := true) ..)
  | ldbFcwEpu => exact extended_changedBy (Gives.ok (epuToFlags_within s))
  | ldbEpuFcw | epui => exact extended_changedBy (Gives.ok ((Within.refl s (flags := true)).note _))
  | _ => exact absurd rfl hi

/-! ### The frames -/

/-- Settles O16: an ordinary instruction in normal mode is `Within` its state. -/
theorem normalModeIsolated : Obligations.NormalModeIsolated := by
  intro i s t hs hi h
  have w := (exec_within i s hi).of_next t h
  exact ⟨w.fcw.control.sys.trans hs, w.fcw.control.epa, w.fcw.control.vie, w.fcw.control.nvie, w.ssp hs, w.psap,
    w.refresh, w.mob, w.halted, w.nmiPending⟩

/-- An instruction with a privilege, a trap or an EPU has no single destination register and is not listed as one that
keeps the flags. -/
theorem target_keepsFlags_of_not_ordinary {i : Instr} (h : ¬ordinary i = true) :
    target i = none ∧ keepsFlags i = false := by
  cases i with
  | inp | inpb | sin | sinb | outp | outpb | sout | soutb | ind | indb | sind | sindb | ini | inib | sini | sinib
  | indr | indrb | sindr | sindrb | inir | inirb | sinir | sinirb | outd | outdb | soutd | soutdb | outi | outib
  | souti | soutib | otdr | otdrb | sotdr | sotdrb | otir | otirb | sotir | sotirb => exact ⟨rfl, rfl⟩
  | di | ei | halt | iret | sc | ldctlTo | ldctlFrom | ldps | mset | mres | mbit | mreq => exact ⟨rfl, rfl⟩
  | ldFromEpu | ldFromEpuMem | ldToEpu | ldToEpuMem | ldbFcwEpu | ldbEpuFcw | epui => exact ⟨rfl, rfl⟩
  | _ => exact absurd rfl h

theorem ordinary_of_target {i : Instr} {x : Size × Reg} (h : target i = some x) : ordinary i = true := by
  by_contra hi
  simp [(target_keepsFlags_of_not_ordinary hi).1] at h

theorem ordinary_of_keepsFlags {i : Instr} (h : keepsFlags i = true) : ordinary i = true := by
  by_contra hi
  simp [(target_keepsFlags_of_not_ordinary hi).2] at h

/-- Settles O24: the frame of `Within` with the destination that `target` names. -/
theorem registerDestinationFrame : Obligations.RegisterDestinationFrame := by
  intro i z c s t hi h
  have w := (exec_within i s (ordinary_of_target hi)).of_next t h
  refine ⟨w.words z c hi, w.nsp, w.ssp, ?_, fun k => ?_, w.psap, w.refresh, w.mob, w.halted, w.nmiPending,
    w.fcw.control.sys, w.fcw.control.epa, w.fcw.control.vie, w.fcw.control.nvie⟩
  · rintro rfl
    exact w.bytes c hi
  · rw [w.mem (by simp [hi])]

/-- Settles O26: `Within` with the flags kept. -/
theorem flagsKept : Obligations.FlagsKept := fun i s t hi h =>
  ((exec_within i s (ordinary_of_keepsFlags hi)).of_next t h).fcw.kept hi

end Sys2Proof.Machine
end

section
/-! The control registers: what LDCTL and LDPS leave (R860, R861, R868). -/

namespace Sys2Proof.Machine

section
variable {i : Instr} {words : Word} {body : State → Comp State} {s t : State}

theorem Answers.next (t : State) : Answers (.next t) t := ⟨t.bus, t.trace, rfl⟩

/-- Where a privileged instruction may run, its body says what it answers (R1030). -/
theorem Runs.ofBody (he : exec i s = answer (privileged i words body s))
    (hb : s.allowed i = true → Answers (answer (body s)) t) : Runs i s t := fun h => by
  rw [he, privileged_eq, if_pos h]
  exact hb h

/-- The upper byte of a word with zeros below it (R43). -/
theorem hiByte_append_zero (w : Word) : hiByte w ++ 0#8 = w &&& 0xFF00 := by
  refine BitVec.eq_of_getLsbD_eq fun m hm => ?_
  rw [BitVec.getLsbD_append, BitVec.getLsbD_and]
  interval_cases m <;> simp [hiByte]

theorem State.setWord_bumpFree (s : State) (c : Reg) (v : Word) :
    s.bumpFree.setWord c v = (s.setWord c v).bumpFree := by
  unfold State.setWord State.bumpFree
  split <;> rfl

/-- `LDCTL ctl, Rs` answers the state `writeCtl` says. -/
theorem ldctlTo_runs (c : Ctl) (r : Reg) (s : State) : Runs (.ldctlTo c r) s (writeCtl c (s.word r) s) :=
  Runs.ofBody rfl fun _ => Answers.next _

/-- `LDCTL Rd, ctl` answers the value `readCtl` says in `Rd`. -/
theorem ldctlFrom_runs (d : Reg) (c : Ctl) (s : State) :
    Runs (.ldctlFrom d c) s ((readCtl c s).2.setWord d (readCtl c s).1) :=
  Runs.ofBody rfl fun _ => Answers.next _

theorem readRefresh_stopped (s : State) (h : s.rowRuns = false) : readRefresh s = (s.refresh, s) := by
  simp [readRefresh, h]

theorem readRefresh_running (s : State) (h : s.rowRuns = true) :
    readRefresh s = (s.refresh.extractLsb' 9 7 ++ Config.refreshRow s.freeCount, s.bumpFree) := by
  simp [readRefresh, h]

/-- The row counter stands with `REV = Rev1` and with REN = 0 (R44). -/
theorem State.rowRuns_stopped (s : State) (h : s.cfg.rev = .rev1 ∨ s.refresh.getLsbD 15 = false) :
    s.rowRuns = false := by
  obtain h | h := h <;> rw [State.rowRuns, h]
  · rfl
  · exact Bool.and_false _

theorem State.rowRuns_running (s : State) (h : s.cfg.rev = .full) (h' : s.refresh.getLsbD 15 = true) :
    s.rowRuns = true := by
  rw [State.rowRuns, h, h']
  rfl

/-- The second word of LDPS can be read where the first one can. -/
theorem State.reaches_add_two (s : State) (a : Word) : s.reaches .w (a + 2) = s.reaches .w a := by
  rw [State.reaches, State.reaches, evenAddress_add_two]

/-- A read that completes: `load_spec` where the address can be accessed. -/
theorem load_ready (z : Size) (sp : Space) {a : Word} {s : State} (h : s.reaches z a = true) :
    ∃ bus trace, load z sp a s = .ok (s.valueAt z sp a, { s with bus := bus, trace := trace }) := by
  have e := load_spec z sp a s
  rwa [if_pos h] at e

/-- LDPS reads both words before it loads FCW and PC (R868). -/
theorem loadProgramStatus_answers (m : Mem) (s : State) (h : s.memReady .w m = true) :
    Answers (answer (loadProgramStatus m s))
      ((s.setFcw (Fcw.legal s.cfg (s.valueAt .w (memEA m s).1 (memEA m s).2))).setPc
        (s.valueAt .w (memEA m s).1 ((memEA m s).2 + 2))) := by
  obtain ⟨bus, trace, e⟩ := load_ready .w (memEA m s).1 h
  have h' : State.reaches .w ((memEA m s).2 + 2) { s with bus := bus, trace := trace } = true :=
    (State.reaches_add_two s _).trans h
  obtain ⟨bus', trace', e'⟩ := load_ready .w (memEA m s).1 h'
  exact ⟨bus', trace', by simp only [loadProgramStatus, e, e', bind, Except.bind]; rfl⟩

/-- Settles O57: the results of LDCTL and LDPS one by one; the rest is `exec_changedBy`. -/
theorem controlRegisterResult : Obligations.ControlRegisterResult := by
  refine ⟨⟨fun r s => ⟨ldctlTo_runs .fcw r s, ldctlTo_runs .refresh r s, ?_, ldctlTo_runs .nsp r s,
    ldctlFrom_runs r .fcw s, ?_, ldctlFrom_runs r .nsp s, fun h => ?_, fun hrev hren => ?_⟩,
    fun m s h => Runs.ofBody rfl fun _ => loadProgramStatus_answers m s h⟩, fun i s t h => ?_⟩
  · rw [← hiByte_append_zero]
    exact ldctlTo_runs .psap r s
  · rw [← hiByte_append_zero]
    exact ldctlFrom_runs r .psap s
  · have e := ldctlFrom_runs r .refresh s
    rwa [readCtl, readRefresh_stopped s (s.rowRuns_stopped h)] at e
  · have e := ldctlFrom_runs r .refresh s
    rw [readCtl, readRefresh_running s (s.rowRuns_running hrev hren)] at e
    exact ⟨_, State.setWord_bumpFree .. ▸ e⟩
  · have c := (exec_changedBy i s).of_next t h
    exact ⟨c.refresh, c.nsp⟩

end

end Sys2Proof.Machine
end

section
/-! How far the decoder reads: no instruction has more than three words (R110), and MSET, MRES and MREQ have one. -/

namespace Sys2Proof

/-- The instruction drives the Multi-micro Out latch. -/
def drivesMob : Instr → Bool
  | .mset | .mres | .mreq _ => true
  | _ => false

/-- The decoding reads at most `n` more words, and no instruction it can give drives the Multi-micro Out latch. -/
def Decoding.Bounded : Decoding → Nat → Prop
  | .instr i, _ => drivesMob i = false
  | .bad _, _ => True
  | .more _, 0 => False
  | .more k, n + 1 => ∀ w, (k w).Bounded n

namespace Decoding

theorem Bounded.succ {d : Decoding} {n : Nat} (h : d.Bounded n) : d.Bounded (n + 1) := by
  induction d generalizing n with
  | instr i => exact h
  | bad e => trivial
  | more k ih =>
    cases n with
    | zero => exact h.elim
    | succ n => exact fun w => ih w (h w)

theorem memForm_bounded {n : Nat} {m : BitVec 2} {f : Reg} {k : Mem → Decoding} (h : ∀ a, (k a).Bounded n) :
    (memForm m f k).Bounded (n + 1) := by
  unfold memForm
  split <;> split
  · trivial
  · exact (h _).succ
  · exact fun w => h _
  · exact fun w => h _

theorem memForm_instr {n : Nat} {m : BitVec 2} {f : Reg} {i : Mem → Instr} (h : ∀ a, drivesMob (i a) = false) :
    (memForm m f fun a => .instr (i a)).Bounded (n + 1) := memForm_bounded h

theorem dstForm_instr {n : Nat} {m : BitVec 2} {f : Reg} {i : Dst → Instr} (h : ∀ a, drivesMob (i a) = false) :
    (dstForm m f fun a => .instr (i a)).Bounded (n + 1) := by
  unfold dstForm
  split
  · exact h _
  · exact memForm_bounded fun _ => h _

theorem immForm_instr {z : Size} {i : BitVec z.bits → Instr} (h : ∀ v, drivesMob (i v) = false) :
    (immForm z fun v => .instr (i v)).Bounded 2 := by
  cases z with
  | b =>
    intro w
    dsimp only
    split
    · exact h _
    · trivial
  | w => exact fun _ => h _
  | l => exact fun _ _ => h _

theorem srcForm_instr {z : Size} {m : BitVec 2} {f : Reg} {i : Src z → Instr} (h : ∀ v, drivesMob (i v) = false) :
    (srcForm z m f fun v => .instr (i v)).Bounded 2 := by
  unfold srcForm
  split
  · exact h _
  · split
    · exact immForm_instr fun _ => h _
    · exact memForm_bounded fun _ => h _

theorem loadForm_bounded {z : Size} {m : BitVec 2} {f : Reg} {load : LdSrc → Instr} {imm : BitVec z.bits → Instr}
    (h : ∀ v, drivesMob (load v) = false) (h' : ∀ v, drivesMob (imm v) = false) :
    (loadForm z m f load imm).Bounded 2 := by
  unfold loadForm
  split
  · exact h _
  · split
    · exact immForm_instr h'
    · exact memForm_bounded fun _ => h _

theorem baseForm_bounded {m : BitVec 2} {f : Reg} {rel ba : Word → Instr} {bx : Reg → Instr}
    (h : ∀ d, drivesMob (rel d) = false) (h' : ∀ d, drivesMob (ba d) = false) (h'' : ∀ r, drivesMob (bx r) = false) :
    (baseForm m f rel ba bx).Bounded 2 := by
  unfold baseForm
  split <;> split
  · exact fun _ => h _
  · exact fun _ => h' _
  · trivial
  · exact fun _ => h'' _

theorem bitForm_bounded {m : BitVec 2} {a b : BitVec 4} {static : Dst → Instr} {dynamic : Reg → Reg → Instr}
    (h : ∀ d, drivesMob (static d) = false) (h' : ∀ d s, drivesMob (dynamic d s) = false) :
    (bitForm m a b static dynamic).Bounded 2 := by
  unfold bitForm
  split
  · exact fun _ => h' _ _
  · exact dstForm_instr h

theorem stackForm_bounded {m : BitVec 2} {a b : BitVec 4} {k : Dst → Instr} (h : ∀ d, drivesMob (k d) = false) :
    (stackForm m a b k).Bounded 2 := by
  unfold stackForm
  split
  · trivial
  · exact dstForm_instr h

theorem blockForm_bounded {a : Reg} {k : Reg → Reg → Cond → Instr} (h : ∀ o r cc, drivesMob (k o r cc) = false) :
    (blockForm a k).Bounded 2 := by
  unfold blockForm
  split
  · trivial
  · intro w
    dsimp only
    split
    · trivial
    · exact h _ _ _

theorem compareForm_bounded {a : Reg} {k : Reg → Reg → Cond → Instr} (h : ∀ o r cc, drivesMob (k o r cc) = false) :
    (compareForm a k).Bounded 2 := by
  unfold compareForm
  split
  · trivial
  · exact fun _ => h _ _ _

theorem loadBlockForm_bounded {a : Reg} {single : Reg → Reg → Instr} {rep : Reg → Reg → Cond → Instr}
    (h : ∀ o r, drivesMob (single o r) = false) (h' : ∀ o r cc, drivesMob (rep o r cc) = false) :
    (loadBlockForm a single rep).Bounded 2 :=
  blockForm_bounded fun o r cc => by
    split
    · exact h _ _
    · exact h' _ _ _

theorem shiftForm_bounded {left right : BitVec 15 → Instr} (h : ∀ q, drivesMob (left q) = false)
    (h' : ∀ q, drivesMob (right q) = false) : (shiftForm left right).Bounded 2 := by
  intro w
  dsimp only
  split
  · exact h' _
  · exact h _

theorem shiftByteForm_bounded {left right : BitVec 7 → Instr} (h : ∀ q, drivesMob (left q) = false)
    (h' : ∀ q, drivesMob (right q) = false) : (shiftByteForm left right).Bounded 2 := by
  intro w
  dsimp only
  split
  · exact h' _
  · exact h _

theorem translateWord_bounded {a : Reg} {k : Reg → Reg → Instr} (h : ∀ s r, drivesMob (k s r) = false) :
    (translateWord a k).Bounded 2 := by
  unfold translateWord
  split
  · trivial
  · intro w
    dsimp only
    split
    · trivial
    · exact h _ _

theorem nonzeroForm_bounded {a : Reg} {i : Instr} (h : drivesMob i = false) : (nonzeroForm a i).Bounded 2 := by
  unfold nonzeroForm
  split
  · trivial
  · exact h

/-! ### The groups of R150 -/

theorem oneByte_bounded (m : BitVec 2) (a b : BitVec 4) : (oneByte m a b).Bounded 2 := by
  unfold oneByte
  split
  case h_1 | h_3 | h_4 | h_6 | h_7 => exact dstForm_instr fun _ => rfl
  case h_2 =>
    split
    · rfl
    · exact memForm_bounded fun _ w => by dsimp only; split <;> trivial
  case h_5 =>
    split
    · trivial
    · exact memForm_bounded fun _ w => by dsimp only; split <;> trivial
  case h_8 => split <;> trivial
  case h_9 => trivial

theorem oneWord_bounded (m : BitVec 2) (a b : BitVec 4) : (oneWord m a b).Bounded 2 := by
  unfold oneWord
  split
  case h_1 | h_3 | h_5 | h_7 | h_9 => exact dstForm_instr fun _ => rfl
  case h_2 | h_6 =>
    split
    · rfl
    · exact memForm_bounded fun _ _ => rfl
  case h_4 | h_8 => split <;> trivial
  case h_10 =>
    split
    · exact fun _ => rfl
    · trivial
  case h_11 => trivial

theorem epuWord_bounded (m : BitVec 2) (a b : BitVec 4) : (epuWord m a b).Bounded 2 := by
  unfold epuWord
  split
  · split
    · trivial
    · split
      · exact fun _ => rfl
      · exact fun _ => rfl
      · trivial
  · split
    · trivial
    · split
      · exact fun _ => memForm_instr fun _ => rfl
      · exact fun _ => memForm_instr fun _ => rfl
      · trivial

theorem epuByte_bounded (m : BitVec 2) (a b : BitVec 4) : (epuByte m a b).Bounded 2 := by
  unfold epuByte
  split
  · split
    case h_1 | h_3 => intro w; dsimp only; split <;> trivial
    case h_2 => exact fun _ => rfl
    case h_4 => trivial
  · trivial

theorem longMultiple_bounded (m : BitVec 2) (a b : BitVec 4) : (longMultiple m a b).Bounded 2 := by
  unfold longMultiple
  split
  case h_1 => exact dstForm_instr fun _ => rfl
  case h_2 | h_3 =>
    split
    · trivial
    · split
      · trivial
      · exact fun _ => memForm_instr fun _ => rfl
  case h_4 => trivial

theorem extendForm_bounded (a b : BitVec 4) : (extendForm a b).Bounded 2 := by
  unfold extendForm
  split <;> trivial

theorem shiftByte_bounded (a b : BitVec 4) : (shiftByte a b).Bounded 2 := by
  unfold shiftByte
  split
  case h_2 | h_8 => exact shiftByteForm_bounded (fun _ => rfl) fun _ => rfl
  case h_4 | h_10 => exact fun _ => rfl
  all_goals trivial

theorem shiftWord_bounded (a b : BitVec 4) : (shiftWord a b).Bounded 2 := by
  unfold shiftWord
  split
  case h_2 | h_6 | h_10 | h_14 => exact shiftForm_bounded (fun _ => rfl) fun _ => rfl
  case h_4 | h_8 | h_12 | h_16 => exact fun _ => rfl
  all_goals trivial

theorem translateForm_bounded (a b : BitVec 4) : (translateForm a b).Bounded 2 := by
  unfold translateForm
  split
  case h_9 => trivial
  all_goals exact translateWord_bounded fun _ _ => rfl

theorem blockWord_bounded (a b : BitVec 4) : (blockWord a b).Bounded 2 := by
  unfold blockWord
  split
  case h_1 | h_4 | h_6 | h_9 => exact compareForm_bounded fun _ _ _ => rfl
  case h_2 | h_7 => exact loadBlockForm_bounded (fun _ _ => rfl) fun _ _ _ => rfl
  case h_3 | h_5 | h_8 | h_10 => exact blockForm_bounded fun _ _ _ => rfl
  case h_11 => trivial

theorem blockByte_bounded (a b : BitVec 4) : (blockByte a b).Bounded 2 := by
  unfold blockByte
  split
  case h_1 | h_4 | h_6 | h_9 => exact compareForm_bounded fun _ _ _ => rfl
  case h_2 | h_7 => exact loadBlockForm_bounded (fun _ _ => rfl) fun _ _ _ => rfl
  case h_3 | h_5 | h_8 | h_10 => exact blockForm_bounded fun _ _ _ => rfl
  case h_11 => trivial

theorem ioWord_bounded (a b : BitVec 4) : (ioWord a b).Bounded 2 := by
  unfold ioWord
  split
  case h_5 | h_6 | h_7 | h_8 => exact fun _ => rfl
  case h_13 => trivial
  all_goals exact loadBlockForm_bounded (fun _ _ => rfl) fun _ _ _ => rfl

theorem ioByte_bounded (a b : BitVec 4) : (ioByte a b).Bounded 2 := by
  unfold ioByte
  split
  case h_5 | h_6 | h_7 | h_8 => exact fun _ => rfl
  case h_13 => trivial
  all_goals exact loadBlockForm_bounded (fun _ _ => rfl) fun _ _ _ => rfl

theorem ctlForm_bounded (a b : BitVec 4) : (ctlForm a b).Bounded 2 := by
  unfold ctlForm
  split <;> trivial

/-- The multi-micro instructions end with their first word. -/
theorem multiMicro_first (a b : BitVec 4) : (∃ i, multiMicro a b = .instr i) ∨ (multiMicro a b).Bounded 2 := by
  unfold multiMicro
  split
  case h_5 => exact .inl ⟨_, rfl⟩
  case h_6 => exact .inr trivial
  all_goals
    split
    · exact .inl ⟨_, rfl⟩
    · exact .inr trivial

/-- Every row of the opcode map gives its instruction with the first word, or reads at most two more words. -/
theorem opcodeMap_first (m : BitVec 2) (op : BitVec 6) (a b : BitVec 4) :
    (∃ i, opcodeMap m op a b = .instr i) ∨ (opcodeMap m op a b).Bounded 2 := by
  by_cases hop : op.toNat = 0x3B ∧ m = 1
  · obtain ⟨hop, rfl⟩ := hop
    have e : opcodeMap 1 op a b = multiMicro a b := by simp [opcodeMap, hop]
    exact e ▸ multiMicro_first a b
  refine .inr ?_
  unfold opcodeMap
  split
  -- 0x00 to 0x0B, 0x10, 0x12, 0x16, 0x18 to 0x1B: a source in any mode
  case h_1 | h_2 | h_3 | h_4 | h_5 | h_6 | h_7 | h_8 | h_9 | h_10 | h_11 | h_12 | h_17 | h_19 | h_23 | h_25 | h_26
    | h_27 | h_28 => exact srcForm_instr fun _ => rfl
  -- 0x0C to 0x0F, 0x1C: the groups
  case h_13 => exact oneByte_bounded ..
  case h_14 => exact oneWord_bounded ..
  case h_15 => exact epuByte_bounded ..
  case h_16 => exact epuWord_bounded ..
  case h_29 => exact longMultiple_bounded ..
  -- 0x11, 0x13, 0x15, 0x17: the stack
  case h_18 | h_22 | h_24 => exact stackForm_bounded fun _ => rfl
  case h_20 => exact stackForm_bounded fun d => by cases d <;> rfl
  -- 0x14, 0x20, 0x21: loads
  case h_21 | h_33 | h_34 => exact loadForm_bounded (fun _ => rfl) fun _ => rfl
  -- 0x1D to 0x1F, 0x2E, 0x2F: one memory operand
  case h_30 | h_32 =>
    split
    · trivial
    · exact memForm_instr fun _ => rfl
  case h_31 =>
    split
    · split <;> trivial
    · exact memForm_instr fun _ => rfl
  case h_47 | h_48 =>
    split
    · rfl
    · exact memForm_instr fun _ => rfl
  -- 0x22 to 0x27: bits
  case h_35 | h_36 | h_37 | h_38 | h_39 | h_40 => exact bitForm_bounded (fun _ => rfl) fun _ _ => rfl
  -- 0x28 to 0x2D: a destination in any mode
  case h_41 | h_42 | h_43 | h_44 | h_45 | h_46 => exact dstForm_instr fun _ => rfl
  -- 0x30 to 0x37: base addresses, and other groups in mode 10
  case h_49 | h_53 | h_54 | h_56 =>
    split
    · rfl
    · exact baseForm_bounded (fun _ => rfl) (fun _ => rfl) fun _ => rfl
  case h_50 =>
    split
    · exact extendForm_bounded ..
    · exact baseForm_bounded (fun _ => rfl) (fun _ => rfl) fun _ => rfl
  case h_51 =>
    split
    · exact shiftByte_bounded ..
    · exact baseForm_bounded (fun _ => rfl) (fun _ => rfl) fun _ => rfl
  case h_52 =>
    split
    · exact shiftWord_bounded ..
    · exact baseForm_bounded (fun _ => rfl) (fun _ => rfl) fun _ => rfl
  case h_55 =>
    split
    · rfl
    · split
      · trivial
      · split <;> exact fun _ => rfl
  -- 0x38 to 0x3F: translation, LDPS, input and output, CPU control
  case h_57 =>
    split
    · exact translateForm_bounded ..
    · trivial
  case h_58 =>
    split
    · trivial
    · split
      · exact memForm_instr fun _ => rfl
      · trivial
  case h_59 =>
    split
    · exact ioByte_bounded ..
    · split
      · split <;> trivial
      · exact blockByte_bounded ..
  case h_60 hop' =>
    split
    · exact ioWord_bounded ..
    · split
      next hm => exact absurd ⟨hop', hm⟩ hop
      · exact blockWord_bounded ..
  case h_61 =>
    split
    · exact nonzeroForm_bounded rfl
    · split
      · split
        · trivial
        · split <;> trivial
      · rfl
  case h_62 =>
    split
    · exact nonzeroForm_bounded rfl
    · split
      · exact ctlForm_bounded ..
      · rfl
  case h_63 | h_64 =>
    split
    · exact nonzeroForm_bounded rfl
    · split <;> trivial

/-- The decoder ends with the first word, or reads at most two more (R110). -/
theorem decode1_first (w : Word) : (∃ i, decode1 w = .instr i) ∨ (decode1 w).Bounded 2 := by
  unfold decode1
  split
  · refine .inl ?_
    unfold compactForm
    dsimp only
    split
    case h_4 => split <;> exact ⟨_, rfl⟩
    all_goals exact ⟨_, rfl⟩
  · exact opcodeMap_first ..

end Decoding

end Sys2Proof
end

section
/-! The fetch of an instruction: what it reads, where it leaves PC, and the points it makes (R31, R87, R99). -/

namespace Sys2Proof

namespace Decoding

/-- A decoding that ended with an instruction it may give: that instruction does not drive the latch. -/
theorem Bounded.run {d : Decoding} {n : Nat} {ws rest : List Word} {i : Instr} (hb : d.Bounded n)
    (h : d.run ws = .ok (i, rest)) : drivesMob i = false := by
  induction d generalizing n ws with
  | instr j => cases h; exact hb
  | bad e => cases h
  | more k ih =>
    cases n with
    | zero => exact hb.elim
    | succ n =>
      cases ws with
      | nil => cases h
      | cons w ws => exact ih w (hb w) h

end Decoding

/-- Where the first word does not trap, the decoder's answer is that of its table (R157). -/
theorem decodeWords_cons {w : Word} (ws : List Word) (h : unimplemented w = false) :
    decodeWords (w :: ws) = (decode1 w).run ws := by
  rw [decodeWords, h]
  split
  next e => exact e.symm
  · rfl

/-- An instruction that takes two words does not drive the Multi-micro Out latch (R870 to R873). -/
theorem drivesMob_of_two_words {a b : Word} {i : Instr} (h : decodeWords [a, b] = .ok (i, [])) :
    drivesMob i = false := by
  have hr : (decode1 a).run [b] = .ok (i, []) := by
    rw [decodeWords] at h
    split at h
    · cases h
    · exact h
  obtain ⟨j, hj⟩ | hb := Decoding.decode1_first a
  · rw [hj] at hr
    cases hr
  · exact hb.run hr

namespace Machine

/-! ### Words in memory -/

/-- The `n` words from `a` on, as a fetch sees them. -/
def State.wordsAt : Nat → Word → State → List Word
  | 0, _, _ => []
  | n + 1, a, s => s.peekWord .prog (evenAddress a) :: State.wordsAt n (a + 2) s

theorem State.wordsAt_congr {s t : State} (h : ∀ a, t.peekWord .prog a = s.peekWord .prog a) (n : Nat) (a : Word) :
    t.wordsAt n a = s.wordsAt n a := by
  induction n generalizing a with
  | zero => rfl
  | succ n ih => simp only [State.wordsAt, h, ih]

@[simp] theorem State.length_wordsAt (s : State) (n : Nat) (a : Word) : (s.wordsAt n a).length = n := by
  induction n generalizing a with
  | zero => rfl
  | succ n ih => simp [State.wordsAt, ih]

theorem add_two_mul_zero (a : Word) : a + 2 * BitVec.ofNat 16 0 = a := BitVec.add_zero _

theorem add_two_mul (a : Word) (k : Nat) : a + 2 + 2 * BitVec.ofNat 16 k = a + 2 * BitVec.ofNat 16 (k + 1) := by
  rw [BitVec.ofNat_add, BitVec.mul_add, BitVec.add_assoc, BitVec.add_comm (2 * _)]
  rfl

/-- The words `State.decoded` looks at. -/
theorem State.decoded_eq (s : State) :
    s.decoded = decodeWords (s.peekWord .prog (evenAddress s.pc) :: s.wordsAt 2 (s.pc + 2)) := by
  have e : s.pc + 2 * 0 = s.pc := BitVec.add_zero _
  have e' : s.pc + 2 + 2 = s.pc + 2 * 2 := BitVec.add_assoc ..
  simp only [State.decoded, State.wordsAt, e, e']
  rfl

/-! ### What a read transaction leaves -/

/-- A transaction that wrote nothing. -/
def BusEvent.isRead : BusEvent → Bool
  | .transfer _ _ read _ _ _ => read
  | _ => true

/-- The point shows the registers of `s`. -/
structure Point.Shows (p : Point) (s : State) : Prop where
  regs : p.regs = s.regs
  nsp : p.nsp = s.nsp
  refresh : p.refresh = s.refresh

/-- From `s` to `t` the step made nothing but reads, and no register changed; it came to one point for each entry of
`odds`, newest first, which tells the odd address asked for there. -/
structure Reads (odds : List (Option Word)) (s t : State) : Prop where
  regs : t.regs = s.regs
  nsp : t.nsp = s.nsp
  refresh : t.refresh = s.refresh
  bus : ∃ es, t.bus = es ++ s.bus ∧ ∀ e ∈ es, BusEvent.isRead e = true
  trace : ∃ ps, t.trace = s.trace.map (ps ++ ·) ∧ ps.map Point.odd = odds ∧ ∀ p ∈ ps, Point.Shows p s

/-- `n` reads, none of which was asked for an odd address: the fetches, and reads of bytes. -/
abbrev ReadsEven (n : Nat) : State → State → Prop := Reads (List.replicate n none)

section
variable {m n : Nat} {odds odds' : List (Option Word)} {s t u : State}

theorem Reads.refl (s : State) : Reads [] s s where
  regs := rfl
  nsp := rfl
  refresh := rfl
  bus := ⟨[], rfl, nofun⟩
  trace := ⟨[], by simp, rfl, nofun⟩

theorem Reads.trans (h : Reads odds s t) (h' : Reads odds' t u) : Reads (odds' ++ odds) s u := by
  obtain ⟨es, hes, hread⟩ := h.bus
  obtain ⟨es', hes', hread'⟩ := h'.bus
  obtain ⟨ps, hps, hodds, hshow⟩ := h.trace
  obtain ⟨ps', hps', hodds', hshow'⟩ := h'.trace
  refine ⟨h'.regs.trans h.regs, h'.nsp.trans h.nsp, h'.refresh.trans h.refresh,
    ⟨es' ++ es, by rw [hes', hes, List.append_assoc], List.forall_mem_append.2 ⟨hread', hread⟩⟩,
    ⟨ps' ++ ps, ?_, by rw [List.map_append, hodds, hodds'], List.forall_mem_append.2 ⟨fun p hp => ?_, hshow⟩⟩⟩
  · rw [hps', hps, Option.map_map]
    congr 1
    funext x
    simp
  · have hp := hshow' p hp
    exact ⟨hp.regs.trans h.regs, hp.nsp.trans h.nsp, hp.refresh.trans h.refresh⟩

theorem ReadsEven.trans (h : ReadsEven m s t) (h' : ReadsEven n t u) : ReadsEven (m + n) s u := by
  have k := Reads.trans h h'
  rwa [← List.replicate_add, Nat.add_comm] at k

/-- One read, and then updates of other fields. -/
theorem Reads.access {odd : Option Word} {e : BusEvent} (he : BusEvent.isRead e = true)
    (regs : t.regs = s.regs := by rfl) (nsp : t.nsp = s.nsp := by rfl) (refresh : t.refresh = s.refresh := by rfl)
    (bus : t.bus = (s.access odd e).bus := by rfl) (trace : t.trace = (s.access odd e).trace := by rfl) :
    Reads [odd] s t := by
  refine ⟨regs, nsp, refresh, ⟨[e], bus, by simpa using he⟩,
    ⟨[State.point odd { s with bus := e :: s.bus }], trace, rfl, ?_⟩⟩
  simp only [List.mem_singleton]
  rintro p rfl
  exact ⟨rfl, rfl, rfl⟩

/-! ### The fetches -/

/-- A fetch can be made. -/
theorem State.pcReady_iff (s : State) : s.pcReady = true ↔ s.pc.getLsbD 0 = false ∨ s.cfg.oddPc = .ignoreA0 := by
  simp [State.pcReady]

/-- A later fetch can be made where the first one could. -/
theorem pcReady_next (hpc : s.pcReady = true) (pc : t.pc = s.pc + 2) (cfg : t.cfg = s.cfg := by rfl) :
    t.pcReady = true := by
  rw [State.pcReady_iff] at *
  rw [pc, cfg, evenAddress_add_two]
  exact hpc

/-- What a fetch leaves: one read, and PC after the word. -/
theorem fetch_ready (st : Status) (hpc : s.pcReady = true) :
    ∃ t, fetch st s = .ok (s.peekWord .prog (evenAddress s.pc), t) ∧ ReadsEven 1 s t ∧
      t = { s with pc := s.pc + 2, bus := t.bus, trace := t.trace } := by
  rw [fetch_eq, if_pos (s.pcReady_iff.1 hpc)]
  exact ⟨_, rfl, Reads.access (odd := none) rfl, rfl⟩

/-- The state after `k` later words have been fetched from `s`, but for the bus record and the points. -/
def State.later (k : Nat) (s : State) : State :=
  { s with
    pc := s.pc + 2 * BitVec.ofNat 16 k
    ir2 := match k with
      | 0 => s.ir2
      | k + 1 => s.peekWord .prog (evenAddress (s.pc + 2 * BitVec.ofNat 16 k)) }

theorem fetchLater_ready (hpc : s.pcReady = true) :
    ∃ t, fetchLater s = .ok (s.peekWord .prog (evenAddress s.pc), t) ∧ ReadsEven 1 s t ∧
      t = { s.later 1 with bus := t.bus, trace := t.trace } := by
  obtain ⟨t, e, r, ht⟩ := fetch_ready .program hpc
  refine ⟨{ t with ir2 := s.peekWord .prog (evenAddress s.pc) }, by simp only [fetchLater, e]; rfl, ?_, ?_⟩
  · exact ⟨r.regs, r.nsp, r.refresh, r.bus, r.trace⟩
  · rw [ht, State.later, add_two_mul_zero]
    rfl

theorem State.later_later (k : Nat) (bus : List BusEvent) (trace : Option (List Point)) (s : State) :
    State.later k { s.later 1 with bus := bus, trace := trace } =
      { s.later (k + 1) with bus := bus, trace := trace } := by
  have e (j : Nat) : s.pc + 2 * BitVec.ofNat 16 1 + 2 * BitVec.ofNat 16 j = s.pc + 2 * BitVec.ofNat 16 (j + 1) :=
    add_two_mul s.pc j
  cases k with
  | zero => simp only [State.later, e, add_two_mul_zero]
  | succ k => simp only [State.later, e]; rfl

/-- The words after a later word, as the state after its fetch sees them. -/
theorem fetchLater_words (n : Nat) (hpc : s.pcReady = true) :
    ∃ t, fetchLater s = .ok (s.peekWord .prog (evenAddress s.pc), t) ∧ ReadsEven 1 s t ∧
      t = { s.later 1 with bus := t.bus, trace := t.trace } ∧ t.pcReady = true ∧
      t.wordsAt n t.pc = s.wordsAt n (s.pc + 2) := by
  obtain ⟨t, e, r, ht⟩ := fetchLater_ready hpc
  have hpc' : t.pc = s.pc + 2 := by rw [ht]; rfl
  refine ⟨t, e, r, ht, pcReady_next hpc hpc' (by rw [ht]; rfl), ?_⟩
  rw [hpc']
  exact State.wordsAt_congr (fun a => by rw [ht]; rfl) ..

/-- The words at PC end an instruction: the fetches of its later words read exactly these. -/
theorem fetchRest_ok {d : Decoding} {i : Instr} {rest : List Word} (hpc : s.pcReady = true)
    (h : d.run (s.wordsAt m s.pc) = .ok (i, rest)) :
    ∃ k t, m = k + rest.length ∧ fetchRest d s = .ok (i, t) ∧ ReadsEven k s t ∧
      t = { s.later k with bus := t.bus, trace := t.trace } := by
  induction d generalizing m s with
  | instr j =>
    cases h
    exact ⟨0, s, by simp, rfl, Reads.refl s, by rw [State.later, add_two_mul_zero]⟩
  | bad e => cases h
  | more k ih =>
    cases m with
    | zero => cases h
    | succ m =>
      obtain ⟨t, e, r, ht, hpc', hw⟩ := fetchLater_words m hpc
      obtain ⟨j, u, hm, e', r', hu⟩ := ih _ (m := m) hpc' (by rw [hw]; exact h)
      refine ⟨j + 1, u, by omega, ?_, Nat.add_comm 1 j ▸ ReadsEven.trans r r', ?_⟩
      · rw [fetchRest, e]
        exact e'
      · rw [hu, ht, State.later_later]

/-- Words that the decoder rejects are refused, if it was given as many as it can ask for (R157). -/
theorem fetchRest_error {d : Decoding} {e : DecodeError} (hpc : s.pcReady = true) (hb : d.Bounded m)
    (h : d.run (s.wordsAt m s.pc) = .error e) : fetchRest d s = .error (.refuse (.undecodable e)) := by
  induction d generalizing m s with
  | instr j => cases h
  | bad e' =>
    cases h
    rfl
  | more k ih =>
    cases m with
    | zero => exact hb.elim
    | succ m =>
      obtain ⟨t, e', -, -, hpc', hw⟩ := fetchLater_words m hpc
      rw [fetchRest, e']
      exact ih _ (m := m) hpc' (hb _) (by rw [hw]; exact h)

/-- The number of later words, counted without fetching them (R1100, log entry 23). -/
theorem laterWords_of_run {d : Decoding} {i : Instr} {a : Word} {rest : List Word}
    (h : d.run (s.wordsAt m a) = .ok (i, rest)) : m = laterWords d a s + rest.length := by
  induction d generalizing m a with
  | instr j =>
    cases h
    simp [laterWords]
  | bad e => cases h
  | more k ih =>
    cases m with
    | zero => cases h
    | succ m =>
      have := ih _ (m := m) h
      rw [laterWords]
      omega

/-! ### One instruction -/

/-- The state in which the fetched instruction of `n` words runs, but for the bus record and the points. -/
def State.fetchedTo (n : Nat) (s : State) : State :=
  { s with
    ir := s.peekWord .prog (evenAddress s.pc)
    ir2 := if n = 1 then s.ir2 else s.peekWord .prog (evenAddress (s.pc + 2 * BitVec.ofNat 16 (n - 1)))
    pc := s.pc + 2 * BitVec.ofNat 16 n }

/-- `State.atRun` takes the pin sample of the step besides. -/
theorem State.atRun_eq (n : Nat) (s : State) : s.atRun n = State.fetchedTo n { s with pins := s.pins.tail } := by
  simp only [State.atRun, State.fetchedTo, show s.pc + 2 * 0 = s.pc from BitVec.add_zero _]
  rfl

theorem fetchFirst_ready (hpc : s.pcReady = true) :
    ∃ t, fetchFirst s = .ok (s.peekWord .prog (evenAddress s.pc), t) ∧ ReadsEven 1 s t ∧
      t = { s with ir := s.peekWord .prog (evenAddress s.pc), pc := s.pc + 2, bus := t.bus, trace := t.trace } ∧
      t.pcReady = true ∧ ∀ n, t.wordsAt n t.pc = s.wordsAt n (s.pc + 2) := by
  obtain ⟨t, e, r, ht⟩ := fetch_ready .firstWord hpc
  refine ⟨{ t with ir := s.peekWord .prog (evenAddress s.pc) }, by simp only [fetchFirst, e]; rfl,
    ⟨r.regs, r.nsp, r.refresh, r.bus, r.trace⟩, by rw [ht], pcReady_next hpc (by rw [ht]) (by rw [ht]), fun n => ?_⟩
  rw [show t.pc = s.pc + 2 by rw [ht]]
  exact State.wordsAt_congr (fun a => by rw [ht]; rfl) ..

/-- A first word that is not of the unimplemented list raises no trap for it. -/
theorem unimplemented_of_noTrap {w : Word} (h : firstWordTrap w s = none) : unimplemented w = false := by
  rw [firstWordTrap] at h
  cases hu : unimplemented w with
  | false => rfl
  | true => simp [hu] at h

/-- The instruction at PC runs after `n` reads, with PC past its words and these words held (R31, R99). -/
theorem runInstruction_ok {i : Instr} (hpc : s.pcReady = true)
    (htrap : firstWordTrap (s.peekWord .prog (evenAddress s.pc)) s = none) (h : s.fetched = some (i, n)) :
    ∃ t, runInstruction s = exec i t ∧ ReadsEven n s t ∧ t = { s.fetchedTo n with bus := t.bus, trace := t.trace } := by
  rw [State.fetched, State.decoded_eq, decodeWords_cons _ (unimplemented_of_noTrap htrap)] at h
  split at h
  next j rest hrun =>
    cases h
    obtain ⟨t, e, r, ht, hpc', hw⟩ := fetchFirst_ready hpc
    have htrap' : firstWordTrap (s.peekWord .prog (evenAddress s.pc)) t = none := by rw [ht]; exact htrap
    obtain ⟨k, u, hm, e', r', hu⟩ := fetchRest_ok (m := 2) hpc' (by rw [hw]; exact hrun)
    refine ⟨u, ?_, ?_, ?_⟩
    · simp only [runInstruction, e, htrap', e']
    · rw [show 3 - rest.length = 1 + k by omega]
      exact ReadsEven.trans r r'
    · rw [show 3 - rest.length = k + 1 by omega, hu, ht]
      cases k with
      | zero => simp only [State.later, State.fetchedTo, add_two_mul_zero]; rfl
      | succ k => simp only [State.later, State.fetchedTo, add_two_mul]; rfl
  next => cases h

theorem runInstruction_error {e : DecodeError} (hpc : s.pcReady = true)
    (htrap : firstWordTrap (s.peekWord .prog (evenAddress s.pc)) s = none) (h : s.decoded = .error e) :
    runInstruction s = .refused (.undecodable e) := by
  rw [State.decoded_eq, decodeWords_cons _ (unimplemented_of_noTrap htrap)] at h
  obtain ⟨t, e', -, ht, hpc', hw⟩ := fetchFirst_ready hpc
  have htrap' : firstWordTrap (s.peekWord .prog (evenAddress s.pc)) t = none := by rw [ht]; exact htrap
  obtain ⟨i, hi⟩ | hb := Decoding.decode1_first (s.peekWord .prog (evenAddress s.pc))
  · rw [hi] at h
    cases h
  · have e'' := fetchRest_error hpc' hb (by rw [hw]; exact h)
    simp only [runInstruction, e', htrap', e'']
    rfl

theorem runInstruction_odd (hpc : s.pcReady = false) : runInstruction s = .fault (.oddFetch s.pc) := by
  have e : fetch .firstWord s = .error (.fault (.oddFetch s.pc)) := by
    rw [fetch_eq, if_neg]
    rw [← s.pcReady_iff, hpc]
    exact Bool.false_ne_true
  simp only [runInstruction, fetchFirst, e]
  rfl

/-- A trap changes FCW alone among the special registers. -/
theorem runInstruction_trap {e : Event} (hpc : s.pcReady = true)
    (htrap : firstWordTrap (s.peekWord .prog (evenAddress s.pc)) s = some e) :
    LeadsTo (runInstruction s) (Spares s) := by
  obtain ⟨u, e', -, hu, -, -⟩ := fetchFirst_ready hpc
  have htrap' : firstWordTrap (s.peekWord .prog (evenAddress s.pc)) u = some e := by rw [hu]; exact htrap
  have w : Within none true s u := by rw [hu]; exact (Within.refl s).update
  simp only [runInstruction, e', htrap']
  exact ((enter_spares ..).mono fun _ k => k.after w).leadsTo

/-- A step that fetches and answers either takes a trap or runs the instruction at PC. -/
theorem runInstruction_next (h : runInstruction s = .next t) :
    Spares s t ∨ ∃ i n u, s.fetched = some (i, n) ∧ exec i u = .next t ∧
      u = { s.fetchedTo n with bus := u.bus, trace := u.trace } := by
  cases hpc : s.pcReady with
  | false =>
    rw [runInstruction_odd hpc] at h
    cases h
  | true =>
    cases htrap : firstWordTrap (s.peekWord .prog (evenAddress s.pc)) s with
    | some e => exact .inl ((runInstruction_trap hpc htrap).of_next t h)
    | none =>
      cases hd : s.decoded with
      | error e =>
        rw [runInstruction_error hpc htrap hd] at h
        cases h
      | ok p =>
        have hf : s.fetched = some (p.1, 3 - p.2.length) := by rw [State.fetched, hd]
        obtain ⟨u, e, -, hu⟩ := runInstruction_ok hpc htrap hf
        exact .inr ⟨_, _, u, hf, e ▸ h, hu⟩

end

end Machine

end Sys2Proof
end

section
/-! One step by what the environment asks for: a reset, an accepted interrupt, an idle cycle of HALT, the next iteration
of a block instruction, or the instruction at PC (R1003, R1008, R1100). -/

namespace Sys2Proof.Machine

/-- The state of the step, its pin sample taken. -/
def State.pinned (s : State) : State := { s with pins := s.pins.tail }

section
variable {s t : State} {p : PinSample}

theorem step_eq (s : State) : step s = stepWith (takePins s).1 s.pinned :=
  congrArg (stepWith (takePins s).1) (takePins_snd s)

theorem State.request_eq (s : State) : s.request = accepted (takePins s).1 (latchNmi (takePins s).1 s.pinned) :=
  congrArg (fun u => accepted (takePins s).1 (latchNmi (takePins s).1 u)) (takePins_snd s)

theorem State.running_iff (s : State) : s.running = true ↔ (takePins s).1.reset = .released ∧ s.resetting = false := by
  simp [State.running]

theorem State.quiet_iff (s : State) :
    s.quiet = true ↔ s.running = true ∧ s.halted = false ∧ s.request = none := by
  simp [State.quiet, and_assoc]

theorem State.fetches_iff (s : State) : s.fetches = true ↔ s.quiet = true ∧ s.repeating = false := by
  simp [State.fetches]

/-- Where no NMI is accepted none is latched (R1005). -/
theorem latchNmi_of_none (h : accepted p (latchNmi p s) = none) : latchNmi p s = s := by
  have hn : (latchNmi p s).nmiPending = false := by
    cases hl : (latchNmi p s).nmiPending with
    | false => rfl
    | true => simp [accepted, hl] at h
  obtain ⟨hs, -⟩ : s.nmiPending = false ∧ p.nmiEdge = false := by simpa [latchNmi] using hn
  show { s with nmiPending := (latchNmi p s).nmiPending } = s
  rw [hn, ← hs]

/-! ### The branches of `work` -/

theorem work_request {e : Event} (hr : s.resetting = false) (h : accepted p (latchNmi p s) = some e) :
    work p s = answer (interrupt e p.ident (latchNmi p s)) := by
  simp [work, hr, h]

theorem work_halted (hr : s.resetting = false) (h : accepted p (latchNmi p s) = none) (hh : s.halted = true) :
    work p s = .next (s.note (.idle s.fcw.sys true false)) := by
  simp [work, hr, latchNmi_of_none h ▸ h, latchNmi_of_none h, hh]

theorem work_repeating (hr : s.resetting = false) (h : accepted p (latchNmi p s) = none) (hh : s.halted = false)
    (hb : s.repeating = true) : work p s = resume s := by
  simp [work, hr, latchNmi_of_none h ▸ h, latchNmi_of_none h, hh, hb]

theorem work_fetches (hr : s.resetting = false) (h : accepted p (latchNmi p s) = none) (hh : s.halted = false)
    (hb : s.repeating = false) : work p s = runInstruction s := by
  simp [work, hr, latchNmi_of_none h ▸ h, latchNmi_of_none h, hh, hb]

/-! ### The branches of the step -/

theorem step_running (h : s.running = true) : step s = work (takePins s).1 s.pinned := by
  rw [step_eq, stepWith, (s.running_iff.1 h).1]

theorem step_request {e : Event} (h : s.running = true) (hq : s.request = some e) :
    step s = answer (interrupt e (takePins s).1.ident (latchNmi (takePins s).1 s.pinned)) := by
  rw [step_running h]
  exact work_request (s.running_iff.1 h).2 (s.request_eq ▸ hq)

theorem step_halted (h : s.running = true) (hq : s.request = none) (hh : s.halted = true) :
    step s = .next (s.pinned.note (.idle s.fcw.sys true false)) := by
  rw [step_running h]
  exact work_halted (s.running_iff.1 h).2 (s.request_eq ▸ hq) hh

theorem step_repeating (h : s.quiet = true) (hb : s.repeating = true) : step s = resume s.pinned := by
  obtain ⟨hr, hh, hq⟩ := s.quiet_iff.1 h
  rw [step_running hr]
  exact work_repeating (s.running_iff.1 hr).2 (s.request_eq ▸ hq) hh hb

theorem step_fetches (h : s.fetches = true) : step s = runInstruction s.pinned := by
  obtain ⟨hqu, hb⟩ := s.fetches_iff.1 h
  obtain ⟨hr, hh, hq⟩ := s.quiet_iff.1 hqu
  rw [step_running hr]
  exact work_fetches (s.running_iff.1 hr).2 (s.request_eq ▸ hq) hh hb

/-- Settles O6: the fetch reads what the decoder is given, and a block instruction goes on with the words held. -/
theorem stepRunsDecoded : Obligations.StepRunsDecoded := by
  refine ⟨fun s hf hpc htrap => ⟨fun i n h => ?_, fun e h => ?_⟩, fun i s hq hb h => ?_⟩
  · obtain ⟨t, e, -, ht⟩ := runInstruction_ok (s := s.pinned) hpc htrap h
    refine ⟨t.bus, t.trace, ?_⟩
    rw [step_fetches hf, e, State.atRun_eq]
    exact congrArg (exec i) ht
  · rw [step_fetches hf]
    exact runInstruction_error (s := s.pinned) hpc htrap h
  · rw [step_repeating hq hb, resume, show decodeWords [s.pinned.ir, s.pinned.ir2] = .ok (i, []) from h]
    rfl

/-! ### Resets and interrupts -/

/-- What a step leaves that a reset is in, or that ends one: the latches and PSAP are cleared (R1100). -/
theorem step_notRunning (h : s.running = false) (e : step s = .next t) :
    t.psap = 0 ∧ t.mob = true ∧ t.halted = false := by
  rw [step_eq, stepWith] at e
  split at e
  next hp =>
    have hr : s.resetting = true := by simpa [State.running, hp] using h
    have hw : work (takePins s).1 s.pinned = answer ((resetSequence s.pinned).map (latchNmi (takePins s).1)) :=
      if_pos hr
    rw [hw, answer_next] at e
    have k : Gives ((resetSequence s.pinned).map (latchNmi (takePins s).1)) fun t =>
        t.psap = 0 ∧ t.mob = true ∧ t.halted = false :=
      (loadStatus_spares _ 0x0002 0x0004).map fun u (k : Spares { resetState s.pinned with resetting := false } u) =>
        ⟨k.psap, k.mob, k.halted⟩
    exact k.of_ok t e
  · cases e
    exact ⟨rfl, rfl, rfl⟩
  · obtain ⟨u, rfl, -⟩ := interruptedAfter_next e
    exact ⟨rfl, rfl, rfl⟩

/-- An acknowledge ends HALT and leaves the Multi-micro Out latch (R51, R52). -/
theorem interrupt_mob_halted (e : Event) (ident : Word) (s : State) :
    Gives (interrupt e ident s) fun t => t.mob = s.mob ∧ t.halted = false :=
  (enter_spares ..).mono fun _ k => ⟨k.mob, k.halted⟩

/-- Settles O10: the halted step idles, and each way out of it, a reset or an acknowledge, clears the halt state. -/
theorem haltStopsExecution : Obligations.HaltStopsExecution := by
  refine ⟨fun s => Runs.ofBody rfl fun _ => Answers.next _, fun s hh hr hq => ?_, fun s t e h => ?_⟩
  · rw [step_halted hr hq hh]
    exact ⟨_, _, rfl⟩
  · cases hr : s.running with
    | false => exact (step_notRunning hr e).2.2
    | true =>
      obtain ⟨ev, hq⟩ : ∃ ev, s.request = some ev := Option.isSome_iff_exists.1 (h.resolve_left (by simp [hr]))
      rw [step_request hr hq] at e
      exact ((interrupt_mob_halted ..).leadsTo.of_next t e).2

/-- Settles O17: LDCTL writes and reads PSAP, `exec_changedBy` says nothing else writes it, and a reset clears it. -/
theorem psapHoldsItsUpperByte : Obligations.PsapHoldsItsUpperByte :=
  ⟨ldctlTo_runs .psap, fun d => ldctlFrom_runs d .psap, fun i s t h => ((exec_changedBy i s).of_next t h).psap,
    fun _ _ h e => (step_notRunning h e).1⟩

/-! ### The Multi-micro Out latch -/

theorem drivesMob_of_DrivesMob {i : Instr} (h : DrivesMob i) : drivesMob i = true := by
  obtain rfl | rfl | ⟨d, rfl⟩ := h <;> rfl

theorem takeMib_cons {b : Bool} {bs : List Bool} (h : s.mib = b :: bs) : takeMib s = (b, { s with mib := bs }) := by
  rw [takeMib, h]

/-- MREQ with a first sample that finds the line free leaves the latch as the second sample is (R873). -/
theorem multiMicroRequest_mob {level : Bool} {bs : List Bool} (d : Reg) (h : s.mib = true :: level :: bs) :
    (multiMicroRequest d s).mob = level := by
  have second : ((State.intermediate [d] { s with mib := level :: bs }).setWord d 0).mib = level :: bs := by simp
  simp only [multiMicroRequest, takeMib_cons h, requestLine, takeMib_cons second, if_true]

/-- A fetch after which the latch differs ran an instruction that drives it. -/
theorem runInstruction_mob (h : runInstruction s = .next t) (hm : t.mob ≠ s.mob) :
    ∃ i n, s.fetched = some (i, n) ∧ DrivesMob i ∧
      ∃ bus trace, exec i { s.fetchedTo n with bus := bus, trace := trace } = .next t := by
  obtain k | ⟨i, n, u, hf, e, hu⟩ := runInstruction_next h
  · exact absurd k.mob hm
  · refine ⟨i, n, hf, ((exec_changedBy i u).of_next t e).mob ?_, u.bus, u.trace, hu ▸ e⟩
    rw [hu]
    exact hm

/-- A block instruction that goes on does not drive the latch: it has two words. -/
theorem resume_mob (h : resume s = .next t) (hm : t.mob ≠ s.mob) :
    runInstruction { s with repeating := false } = .next t := by
  rw [resume] at h
  split at h
  next i hd =>
    have k := ((exec_changedBy i _).of_next t h).mob hm
    exact absurd (drivesMob_of_DrivesMob k) (by simp [drivesMob_of_two_words hd])
  · exact h

/-- A running step that changes the latch fetches. -/
theorem step_mob (hr : s.running = true) (e : step s = .next t) (hm : t.mob ≠ s.mob) :
    runInstruction { s.pinned with repeating := false } = .next t := by
  cases hq : s.request with
  | some ev =>
    rw [step_request hr hq] at e
    exact absurd ((interrupt_mob_halted ..).leadsTo.of_next t e).1 hm
  | none =>
    cases hh : s.halted with
    | true =>
      rw [step_halted hr hq hh] at e
      cases e
      exact absurd rfl hm
    | false =>
      have hqu := s.quiet_iff.2 ⟨hr, hh, hq⟩
      cases hb : s.repeating with
      | true => exact resume_mob (step_repeating hqu hb ▸ e) hm
      | false =>
        rw [step_fetches (s.fetches_iff.2 ⟨hqu, hb⟩)] at e
        rwa [show { s.pinned with repeating := false } = s.pinned by rw [← hb]; rfl]

/-- Settles O55. -/
theorem mobLatch : Obligations.MobLatch := by
  refine ⟨fun s => ⟨Runs.ofBody rfl fun _ => Answers.next _, Runs.ofBody rfl fun _ => Answers.next _⟩,
    fun level d => ?_, fun i s t h => ((exec_changedBy i s).of_next t h).mob,
    fun s t h e => (step_notRunning h e).2.1, fun s t hr e hm => ?_⟩
  · let s : State := { State.reset with mob := !level, mib := [true, level] }
    exact ⟨s, multiMicroRequest d s, rfl, rfl, multiMicroRequest_mob d rfl⟩
  · obtain ⟨i, n, hf, hi, bus, trace, e'⟩ := runInstruction_mob (step_mob hr e hm) hm
    refine ⟨i, n, hf, hi, bus, trace, ?_⟩
    rw [State.atRun_eq]
    exact e'

end

end Sys2Proof.Machine
end

section
/-! The forms the spec refuses: separate registers, CALL through R15, condition nibbles, pair and quadruple codes (R25,
R600, R700, R1126). -/

namespace Sys2Proof.Machine

/-! ### Computations that refuse -/

section
variable {α β : Type} {x : Comp α} {f : α → Comp β} {b b' : Bool} {r r' : Refusal} {s t : State}

theorem bind_stops {e : Stop} (h : x = .error e) : (x >>= f) = .error e := by
  rw [h]
  rfl

theorem bind_goesOn {a : α} (h : x = .ok a) : (x >>= f) = f a := by
  rw [h]
  rfl

theorem require_stops {f : Unit → Comp β} (h : b = false) : (require b r >>= f) = .error (.refuse r) := by
  rw [h]
  rfl

theorem require_goesOn {f : Unit → Comp β} (h : b = true) : (require b r >>= f) = f () := by
  rw [h]
  rfl

theorem answer_refuses {x : Comp State} (h : x = .error (.refuse r)) : answer x = .refused r := by
  rw [h]
  rfl

/-- The first check of an instruction fails. -/
theorem refused_first {f : Unit → Comp State} (h : b = false) : answer (require b r >>= f) = .refused r :=
  answer_refuses (require_stops h)

/-- The first check of an instruction holds, the second one fails. -/
theorem refused_second {f : Unit → Comp State} (h : b = true) (h' : b' = false) :
    answer (require b r >>= fun _ => require b' r' >>= f) = .refused r' :=
  answer_refuses ((require_goesOn h).trans (require_stops h'))

/-! ### Odd pair codes (R25) -/

section
variable {c d : Reg}

theorem readReg_odd (h : pairOk c = false) (s : State) : readReg .l c s = .error (.refuse (.illegalPair c)) := by
  simp [readReg, h]

theorem writeReg_odd (h : pairOk d = false) (v : Long) (s : State) :
    writeReg .l d v s = .error (.refuse (.illegalPair d)) := by
  simp [writeReg, h]

theorem readReg_fits {z : Size} (h : regFits z c = true) : readReg z c s = .ok (s.reg z c) := by
  rw [readReg_eq, if_pos h]

theorem binary_odd {src : Src .l} {g : Binary .l} (h : pairOk d = false) (hs : s.srcReady .l src = true) :
    binary .l d src g s = .error (.refuse (.illegalPair d)) := by
  obtain ⟨bus, trace, e⟩ := readSrc_spec .l src s hs
  exact (bind_goesOn e).trans (bind_stops (readReg_odd h _))

theorem compare_odd {src : Src .l} {g : Long → Long → Fcw → Fcw} (h : pairOk d = false)
    (hs : s.srcReady .l src = true) : compare .l d src g s = .error (.refuse (.illegalPair d)) := by
  obtain ⟨bus, trace, e⟩ := readSrc_spec .l src s hs
  exact (bind_goesOn e).trans (bind_stops (readReg_odd h _))

/-- What is read before the register may be anything that can be read. -/
theorem loadReg_odd {src : LdSrc} (h : pairOk d = false) (hs : s.ldReady .l src = true) :
    loadReg .l d src s = .error (.refuse (.illegalPair d)) := by
  cases src with
  | reg c => exact (bind_goesOn (readReg_fits hs)).trans (writeReg_odd h _ _)
  | mem m =>
    obtain ⟨bus, trace, e⟩ := load_ready .l (ldEA m s).1 hs
    exact (bind_goesOn e).trans (writeReg_odd h _ _)

theorem loadRelative_odd {disp : Word} (h : pairOk d = false) (hs : s.reaches .l (s.pc + disp) = true) :
    loadRelative .l d disp s = .error (.refuse (.illegalPair d)) := by
  obtain ⟨bus, trace, e⟩ := load_ready .l .prog hs
  exact (bind_goesOn e).trans (writeReg_odd h _ _)

theorem popTo_odd {sp : Reg} (h : pairOk d = false) (hd : popSeparate .l sp (.reg d) = true)
    (hs : s.reaches .l (s.word sp) = true) : popTo .l (.reg d) sp s = .error (.refuse (.illegalPair d)) := by
  obtain ⟨bus, trace, e⟩ := load_ready .l (dsp sp) hs
  exact (require_goesOn hd).trans ((bind_goesOn e).trans (writeReg_odd h _ _))

theorem readSrc_odd (h : pairOk c = false) (s : State) : readSrc .l (.reg c) s = .error (.refuse (.illegalPair c)) :=
  bind_stops (readReg_odd h s)

theorem readDst_odd (h : pairOk c = false) (s : State) : readDst .l (.reg c) s = .error (.refuse (.illegalPair c)) :=
  bind_stops (readReg_odd h s)

end

/-! ### Guarded instructions -/

section
variable {i : Instr} {body iter : State → Comp State} {words : Word} {c d p : Reg} {cc : Cond}

theorem privileged_refuses (he : exec i s = answer (privileged i words body s)) (h : body s = .error (.refuse r)) :
    Refuses i s r := fun ha => by
  rw [he, privileged_eq, if_pos ha]
  exact answer_refuses h

theorem ioOnce_refuses (h : separate d p c = false) (he : exec i s = answer (ioOnce i iter d p c s)) :
    Refuses i s .overlap := privileged_refuses he (require_stops h)

theorem ioRepeat_refuses (hc : blockIoCondition cc = true) (h : separate d p c = false)
    (he : exec i s = answer (ioRepeat i iter d p c cc s)) : Refuses i s .overlap :=
  privileged_refuses he ((require_goesOn hc).trans (require_stops h))

theorem ioRepeat_refuses_condition (hc : blockIoCondition cc = false)
    (he : exec i s = answer (ioRepeat i iter d p c cc s)) : Refuses i s (.blockCondition cc) :=
  privileged_refuses he (require_stops hc)

end

theorem testSeparate_of_overlap {d p c : Reg} (h : separate d p c = false) : testSeparate d p c = false := by
  simp [testSeparate, h]

theorem testSeparate_of_one {d p c : Reg} (h : d = 1 ∨ p = 1 ∨ c = 1) : testSeparate d p c = false := by
  obtain rfl | rfl | rfl := h <;> simp [testSeparate]

end

/-- Settles O59: the check that fails comes before anything else that could stop the instruction. -/
theorem refusedForms : Obligations.RefusedForms := by
  refine ⟨⟨fun d sp s => ⟨refused_first, refused_first⟩, fun d src s hd h => ⟨refused_second hd h, refused_second hd h⟩,
    fun d src s hd h => ⟨refused_second hd h, refused_second hd h⟩,
    fun d s => ⟨refused_first (bne_self_eq_false d), refused_first (bne_self_eq_false d)⟩,
    fun d p r cc s h => ?_, fun d p r cc s h => ⟨refused_first h, refused_first h, refused_first h, refused_first h⟩,
    fun d t r s h => ?_, fun m s h => refused_first h,
    fun d p r cc s => ⟨fun h => ⟨refused_first h, refused_first h, refused_first h, refused_first h⟩, fun h => ?_⟩⟩,
    ⟨fun d src s h hs => answer_refuses (binary_odd h hs), fun d src s h hs => answer_refuses (binary_odd h hs),
      fun d src s h hs => answer_refuses (compare_odd h hs), fun d s h => ?_, fun c s h => ?_⟩,
    fun d s h => ⟨fun _ => refused_first h, fun _ => refused_first h, refused_first h⟩⟩
  · have ht := testSeparate_of_overlap h
    refine ⟨refused_first h, refused_first h, refused_first h, refused_first h, refused_first h, refused_first h,
      refused_first h, refused_first h, refused_first ht, refused_first ht, refused_first ht, refused_first ht,
      refused_first h, refused_first h, refused_first h, refused_first h, refused_first h, refused_first h,
      refused_first h, refused_first h, refused_first h, refused_first h, refused_first h, refused_first h,
      fun hc => ⟨refused_second hc h, refused_second hc h, refused_second hc h, refused_second hc h⟩,
      ioOnce_refuses h rfl, ioOnce_refuses h rfl, ioOnce_refuses h rfl, ioOnce_refuses h rfl, ioOnce_refuses h rfl,
      ioOnce_refuses h rfl, ioOnce_refuses h rfl, ioOnce_refuses h rfl, ioOnce_refuses h rfl, ioOnce_refuses h rfl,
      ioOnce_refuses h rfl, ioOnce_refuses h rfl, ioOnce_refuses h rfl, ioOnce_refuses h rfl, ioOnce_refuses h rfl,
      ioOnce_refuses h rfl, fun hc => ?_⟩
    and_intros <;> exact ioRepeat_refuses hc h rfl
  · have ht := testSeparate_of_one h
    exact ⟨refused_first ht, refused_first ht, refused_first ht, refused_first ht⟩
  · and_intros <;> exact ioRepeat_refuses_condition h rfl
  · exact ⟨fun _ => refused_first h, fun _ => refused_first h,
      fun _ => answer_refuses (bind_stops (readReg_odd h s)), fun _ => answer_refuses (bind_stops (readReg_odd h s)),
      fun _ => answer_refuses (bind_stops (readReg_odd h s)), fun _ => answer_refuses (bind_stops (readReg_odd h s)),
      fun _ => answer_refuses (bind_stops (readReg_odd h s)), fun _ => answer_refuses (bind_stops (readReg_odd h s)),
      refused_first h, answer_refuses (bind_stops (readDst_odd h s)), fun v => answer_refuses (writeReg_odd h v s),
      fun _ hs => answer_refuses (loadReg_odd h hs), fun _ hs => answer_refuses (loadRelative_odd h hs),
      fun _ hd hs => answer_refuses (popTo_odd h hd hs)⟩
  · exact ⟨fun _ => answer_refuses (bind_stops (readSrc_odd h s)),
      fun _ => answer_refuses (bind_stops (readSrc_odd h s)),
      fun _ => answer_refuses (bind_stops (readSrc_odd h s)), fun _ => answer_refuses (bind_stops (readReg_odd h s)),
      fun _ => answer_refuses (bind_stops (readDst_odd h s)), fun _ => answer_refuses (bind_stops (readReg_odd h s)),
      fun _ => answer_refuses (bind_stops (readReg_odd h s)), fun d hd hs =>
        ⟨answer_refuses ((require_goesOn hd).trans ((require_goesOn hs).trans (bind_stops (readSrc_odd h s)))),
          answer_refuses ((require_goesOn hd).trans ((require_goesOn hs).trans (bind_stops (readSrc_odd h s))))⟩⟩

end Sys2Proof.Machine
end

section
/-! Reset (R1100, D12): while it is active, when it ends, and inside a step, where what the step had written stays. -/

namespace Sys2Proof.Machine

/-! ### REFRESH after a reset -/

section
variable {s t u v : State}

/-- REN reads 0 after a reset (R1100). -/
theorem State.refreshKept_ren (row : BitVec 9) (s : State) : (s.refreshKept row).getLsbD 15 = false := by
  unfold State.refreshKept
  split <;> simp

theorem State.refreshKept_stopped (row : BitVec 9) (h : s.rowRuns = false) :
    s.refreshKept row = s.refresh &&& 0x7FFF := by
  rw [State.refreshKept, h]
  rfl

/-- Of a row counter that ran the Rate field stays and the Row field is `row` (R44, log entry 17). -/
theorem State.refreshKept_running (row : BitVec 9) (h : s.rowRuns = true) :
    s.refreshKept row = 0#1 ++ s.refresh.extractLsb' 9 6 ++ row := by
  rw [State.refreshKept, if_pos h]
  refine BitVec.eq_of_getLsbD_eq fun m hm => ?_
  rw [BitVec.getLsbD_or, BitVec.getLsbD_and, BitVec.getLsbD_append, BitVec.getLsbD_append]
  interval_cases m <;> simp

/-! ### The end of a reset -/

/-- A word read at an even address, transaction and all. -/
theorem load_even {a : Word} (ha : evenAddress a = a) (s : State) : load .w .prog a s =
    .ok (s.peekWord .prog a, s.access (oddPart a)
      (.transfer .program s.fcw.sys true false a (s.peekWord .prog a))) := by
  have ha' : a.getLsbD 0 = false := by
    rw [← ha, evenAddress]
    simp
  have h : s.reaches .w a = true := by
    rw [State.reaches, ha']
    rfl
  have hv : s.valueAt .w .prog a = s.peekWord .prog a := congrArg (s.peekWord .prog) ha
  rw [load, readWordAs_eq, if_pos h, hv, ha]
  rfl

/-- The two fetches of R1100, transaction by transaction. -/
theorem loadStatus_even {f p : Word} (hf : evenAddress f = f) (hp : evenAddress p = p) (s : State) :
    ∃ trace, loadStatus f p s = .ok
      { s with
        fcw := Fcw.legal s.cfg (s.peekWord .prog f), pc := s.peekWord .prog p, trace := trace
        bus := .transfer .program s.fcw.sys true false p (s.peekWord .prog p) ::
          .transfer .program s.fcw.sys true false f (s.peekWord .prog f) :: s.bus } := by
  simp only [loadStatus, load_even hf, load_even hp, bind, Except.bind]
  exact ⟨_, rfl⟩

/-! ### A step that made nothing but reads, seen from a reset inside it -/

/-- A read does nothing to memory. -/
theorem applyWrite_isRead (c : Cfg) (m : Memory) {e : BusEvent} (h : BusEvent.isRead e = true) :
    applyWrite c m e = m := by
  cases e with
  | transfer st sys read byte a v =>
    cases h
    rfl
  | idle | epuInternal => rfl

theorem foldl_applyWrite_isRead (c : Cfg) (m : Memory) {es : List BusEvent}
    (h : ∀ e ∈ es, BusEvent.isRead e = true) : es.foldl (applyWrite c) m = m := by
  induction es with
  | nil => rfl
  | cons e es ih =>
    rw [List.foldl_cons, applyWrite_isRead c m (h e List.mem_cons_self)]
    exact ih fun e' he' => h e' (List.mem_cons_of_mem _ he')

/-- The step from `s`, its points kept, made the reads `odds` and ended in `t`, which may have written a register after
them. -/
structure Watched (odds : List (Option Word)) (s t : State) : Prop where
  bus : ∃ es, t.bus = es ++ s.bus ∧ ∀ e ∈ es, BusEvent.isRead e = true
  trace : ∃ ps, t.trace = some ps ∧ ps.map Point.odd = odds ∧ ∀ p ∈ ps, Point.Shows p s

theorem Reads.accessed {e : BusEvent} (odd : Option Word) (he : BusEvent.isRead e = true) (s : State) :
    Reads [odd] s (s.access odd e) := Reads.access he

theorem Reads.watched {odds : List (Option Word)} (h : Reads odds (traced s) v) (bus : t.bus = v.bus)
    (trace : t.trace = v.trace) : Watched odds s t := by
  obtain ⟨ps, hps, hodds, hshow⟩ := h.trace
  refine ⟨bus ▸ h.bus, ps, ?_, hodds, fun p hp => ⟨(hshow p hp).regs, (hshow p hp).nsp, (hshow p hp).refresh⟩⟩
  rw [trace, hps]
  simp [traced]

variable {odds : List (Option Word)} {k : Nat}

theorem Watched.points (h : Watched odds s t) :
    t.points.map Point.odd = odds.reverse ∧ ∀ p ∈ t.points, Point.Shows p s := by
  obtain ⟨ps, hps, hodds, hshow⟩ := h.trace
  simp only [State.points, hps, Option.getD_some, List.map_reverse, hodds, List.mem_reverse, true_and]
  exact hshow

theorem Watched.length_points (h : Watched odds s t) : t.points.length = odds.length := by
  simpa using congrArg List.length h.points.1

/-- The first odd address among the first points is that of the first accesses. -/
theorem Watched.oddBefore_eq (h : Watched odds s t) : oddBefore k t = (odds.reverse.take k).findSome? id := by
  rw [← h.points.1, ← List.map_take, List.findSome?_map]
  rfl

/-- The point of the reset shows the registers the step began with. -/
theorem Watched.now_shows (h : Watched odds s t) : Point.Shows (around k s t).1 s := by
  have hall : ∀ p ∈ s.point none :: t.points, Point.Shows p s :=
    List.forall_mem_cons.2 ⟨⟨rfl, rfl, rfl⟩, h.points.2⟩
  rw [around, List.getD_eq_getElem _ _ (by simp)]
  exact hall _ (List.getElem_mem _)

/-- So does the next one, if the step still had a read to make. -/
theorem Watched.next_shows (h : Watched odds s t) (hk : k < odds.length) : Point.Shows (around k s t).2 s := by
  have hlt : k < t.points.length := by rwa [h.length_points]
  have e : (around k s t).2 = t.points[k] := by
    rw [around, Nat.min_eq_left hlt.le]
    exact (List.getD_append _ _ _ _ hlt).trans (List.getD_eq_getElem _ _ hlt)
  exact e ▸ h.points.2 _ (List.getElem_mem _)

/-- After the last read the step ends. -/
theorem Watched.next_shows_or (h : Watched odds s t) :
    Point.Shows (around k s t).2 s ∨ Point.Shows (around k s t).2 t := by
  by_cases hk : k < odds.length
  · exact .inl (h.next_shows hk)
  · rw [← h.length_points, not_lt] at hk
    have e : (around k s t).2 = t.point none := by simp [around, Nat.min_eq_right hk]
    exact .inr (e ▸ ⟨rfl, rfl, rfl⟩)

/-- Whatever reads were made by then, memory is as it was. -/
theorem Watched.mem (h : Watched odds s t) : (abandoned k s t).mem = s.mem := by
  obtain ⟨es, hes, hread⟩ := h.bus
  refine foldl_applyWrite_isRead s.cfg s.mem fun e he => hread e ?_
  have he := List.mem_of_mem_take he
  rw [List.mem_reverse, hes, List.length_append, Nat.add_sub_cancel, List.take_left'] at he
  · exact he
  · rfl

/-- A step that fetched `n` words and then made one read: whether that read, which comes after the fetches, is among the
first points. -/
theorem Watched.oddBefore_last {odd : Option Word} {n : Nat} (h : Watched (odd :: List.replicate n none) s t) :
    oddBefore k t = if k ≤ n then none else odd := by
  rw [h.oddBefore_eq, List.reverse_cons, List.reverse_replicate]
  split
  next hk =>
    rw [List.take_append_of_le_length (by simpa using hk), List.take_replicate]
    simp
  next hk =>
    rw [List.take_of_length_le (by simp; omega)]
    simp

/-! ### What a reset leaves of the registers -/

/-- The registers and memory of `t` are those of `s`, but for REN and the Row field of a counter that ran (R1100). -/
def Untouched (s t : State) : Prop :=
  t.regs = s.regs ∧ t.nsp = s.nsp ∧ t.mem = s.mem ∧ ∃ row : BitVec 9, t.refresh = s.refreshKept row

/-- From `s` to `t` no register changed but the byte register `d`. -/
structure BesideByte (d : Reg) (s t : State) : Prop where
  bytes : ∀ b, b ≠ d → t.byte b = s.byte b
  regs : ∀ c : Fin 16, c.val ≠ (byteHome d).toNat → t.regs[c] = s.regs[c]
  nsp : t.nsp = s.nsp
  refresh : t.refresh = s.refresh

theorem untouched_resetState (regs : u.regs = s.regs) (nsp : u.nsp = s.nsp) (mem : u.mem = s.mem)
    (refresh : u.refresh = s.refresh) (cfg : u.cfg = s.cfg) : Untouched s (resetState u) := by
  refine ⟨regs, nsp, mem, Config.refreshRow u.freeCount, ?_⟩
  show u.refreshKept _ = s.refreshKept _
  rw [State.refreshKept, State.refreshKept, State.rowRuns, State.rowRuns, refresh, cfg]

/-- A byte register is a half of one of R0 to R7, in either mode (R13, R21). -/
theorem State.byte_eq (s : State) (b : Reg) : s.byte b =
    if b.msb then loByte (s.regs[(byteHome b).toNat]'(byteHome b).isLt)
    else hiByte (s.regs[(byteHome b).toNat]'(byteHome b).isLt) := by
  have h : byteHome b ≠ 15#4 := by revert b; decide
  simp [State.byte, State.word, h]

theorem State.byte_congr (h : t.regs = s.regs) (b : Reg) : t.byte b = s.byte b := by
  rw [State.byte_eq, State.byte_eq]
  simp only [h]

theorem BesideByte.refl (d : Reg) (s : State) : BesideByte d s s := ⟨fun _ _ => rfl, fun _ _ => rfl, rfl, rfl⟩

theorem byte_resetState (b : Reg) (s : State) : (resetState s).byte b = s.byte b :=
  State.byte_congr (s := s) (t := resetState s) rfl b

theorem besideByte_setByte (d : Reg) (v : Byte) (s : State) : BesideByte d s (s.setByte d v) := by
  have h : byteHome d ≠ 15 := by revert d; decide
  refine ⟨fun b hb => s.byte_setByte_ne v hb, fun c hc => ?_, ?_, State.setByte_refresh ..⟩ <;>
    simp only [State.setByte, State.setWord, h, decide_false, Bool.false_and, Bool.false_eq_true, if_false]
  exact Vector.getElem_set_ne _ _ fun e => hc e.symm

/-- A register that is the same at both points is as it was (R1100, D12). -/
theorem abandoned_shows (now : Point.Shows (around k s t).1 s) (next : Point.Shows (around k s t).2 s) :
    (abandoned k s t).regs = s.regs ∧ (abandoned k s t).nsp = s.nsp ∧ (abandoned k s t).refresh = s.refresh := by
  simp only [abandoned, leftBetween, now.regs, now.nsp, now.refresh, next.regs, next.nsp, next.refresh,
    keptOrFree_same, and_true]
  exact Vector.ext fun c hc => Vector.getElem_ofFn hc

/-- So is every byte that is not to be written before the next point. -/
theorem abandoned_besideByte {d : Reg} (now : Point.Shows (around k s t).1 s) (next : Point.Shows (around k s t).2 u)
    (h : BesideByte d s u) : BesideByte d s (abandoned k s t) := by
  have regs (c : Nat) (hc : c < 16) : (abandoned k s t).regs[c] = keptOrFree t.freeCount c s.regs[c] u.regs[c] := by
    simp [abandoned, leftBetween, now.regs, next.regs]
  refine ⟨fun b hb => ?_, fun c hc => ?_, ?_, ?_⟩
  · have e := h.bytes b hb
    simp only [State.byte_eq, regs] at e ⊢
    split at e
    · rw [if_pos ‹_›, if_pos ‹_›]
      exact (keptOrFree_halves ..).2 e.symm
    · rw [if_neg ‹_›, if_neg ‹_›]
      exact (keptOrFree_halves ..).1 e.symm
  · exact (regs c c.isLt).trans (h.regs c hc ▸ keptOrFree_same ..)
  · simp [abandoned, leftBetween, now.nsp, next.nsp, h.nsp]
  · simp [abandoned, leftBetween, now.refresh, next.refresh, h.refresh]

/-! ### A reset in the step of an instruction -/

variable {n : Nat} {p : PinSample} {ps : List PinSample} {d : Reg} {m : LdMem} {i : Instr}

/-- Fetches where PC can be fetched from do not stop. -/
theorem fetchOnly_ready (k : Nat) (st : Status) (h : k = 0 ∨ s.pcReady = true) : ∃ t, fetchOnly k st s = .ok t := by
  induction k generalizing st s with
  | zero => exact ⟨s, rfl⟩
  | succ k ih =>
    have hpc : s.pcReady = true := h.resolve_left k.succ_ne_zero
    obtain ⟨t, e, -, ht⟩ := fetch_ready st hpc
    obtain ⟨u, e'⟩ := ih .program (.inr (pcReady_next (t := t) hpc (by rw [ht]) (by rw [ht])))
    exact ⟨u, by rw [fetchOnly, e]; exact e'⟩

theorem State.begins_iff (p : PinSample) (s : State) : s.begins p = true ↔
    s.resetting = false ∧ accepted p (latchNmi p s) = none ∧ s.halted = false ∧ s.repeating = false := by
  simp [State.begins, and_assoc]

/-- Among the fetches nothing is written. -/
theorem interruptedAfter_fetching (hb : s.begins p = true) (hk : k < s.fetchedWords)
    (h : k = 0 ∨ s.pcReady = true) : ∃ t, interruptedAfter k p s = .next t ∧ Untouched s t := by
  obtain ⟨t, e⟩ := fetchOnly_ready k .firstWord h
  obtain ⟨pc, bus, trace, rfl⟩ := fetchOnly_ok e
  refine ⟨resetState { s with pc := pc, bus := bus, trace := trace }, ?_, untouched_resetState rfl rfl rfl rfl rfl⟩
  rw [interruptedAfter, if_pos (by simpa [hb] using hk), e]
  rfl

theorem State.fetchedWords_pos (s : State) : 0 < s.fetchedWords := by
  simp only [State.fetchedWords]
  split <;> omega

/-- The words counted for the reset are those of the instruction that is fetched. -/
theorem State.fetchedWords_eq (htrap : firstWordTrap (s.peekWord .prog (evenAddress s.pc)) s = none)
    (h : s.fetched = some (i, n)) : s.fetchedWords = n := by
  rw [State.fetched, State.decoded_eq, decodeWords_cons _ (unimplemented_of_noTrap htrap)] at h
  split at h
  next j rest hrun =>
    cases h
    have := laterWords_of_run hrun
    simp only [State.fetchedWords, htrap, Option.isSome_none, Bool.false_eq_true, if_false]
    omega
  next => cases h

theorem interruptedAfter_running (hk : s.fetchedWords ≤ k) (hw : work p (traced s) = .next t)
    (ho : oddBefore k t = none) : interruptedAfter k p s = .next (resetState (abandoned k s t)) := by
  rw [interruptedAfter, if_neg (by simp; omega), hw]
  cases s.cfg.misaligned <;> simp [ho]

/-- With `MISALIGNED = refuse` a word access that the reset does not precede stops the step (R86). -/
theorem interruptedAfter_misaligned {a : Word} (hk : s.fetchedWords ≤ k) (hw : work p (traced s) = .next t)
    (ho : oddBefore k t = some a) (hm : s.cfg.misaligned = .refuse) :
    interruptedAfter k p s = .fault (.misaligned a) := by
  rw [interruptedAfter, if_neg (by simp; omega), hw]
  simp [hm, ho]

/-- The read of LDB. -/
theorem ldb_watched (r : ReadsEven n (traced s) v) :
    ∃ w, exec (.ldb d (.mem m)) v = .next w ∧ Watched (none :: List.replicate n none) s w ∧ BesideByte d v w := by
  refine ⟨_, rfl, Reads.watched (Reads.trans r (Reads.accessed none rfl v)) (State.setByte_bus ..)
    (State.setByte_trace ..), ?_⟩
  obtain ⟨bytes, regs, nsp, refresh⟩ := besideByte_setByte d (v.peek (ldEA m v).1 (ldEA m v).2)
    (v.note (.transfer (ldEA m v).1.status v.fcw.sys true true (ldEA m v).2
      (v.peekWord (ldEA m v).1 (evenAddress (ldEA m v).2))))
  exact ⟨bytes, regs, nsp, refresh⟩

/-- The read of LD, at an odd address too: `traced` makes every access. -/
theorem ld_watched (r : ReadsEven n (traced s) v) (hm : v.cfg.misaligned = .ignoreA0) :
    ∃ w, exec (.ld d (.mem m)) v = .next w ∧ Watched (oddPart (ldEA m v).2 :: List.replicate n none) s w := by
  have hr : v.reaches .w (ldEA m v).2 = true := by simp [State.reaches, hm]
  have e : exec (.ld d (.mem m)) v = .next ((v.access (oddPart (ldEA m v).2) (.transfer (ldEA m v).1.status v.fcw.sys
      true false (evenAddress (ldEA m v).2) (v.valueAt .w (ldEA m v).1 (ldEA m v).2))).setWord d
        (v.valueAt .w (ldEA m v).1 (ldEA m v).2)) := by
    show answer (loadReg .w d (.mem m) v) = _
    simp only [loadReg, load, readWordAs_eq, hr, if_true]
    rfl
  exact ⟨_, e, Reads.watched (Reads.trans r (Reads.accessed _ rfl v)) (State.setWord_bus ..) (State.setWord_trace ..)⟩

theorem Untouched.byte (h : Untouched s t) (b : Reg) : t.byte b = s.byte b := State.byte_congr h.1 b

/-- A reset before the last read of the step finds nothing written. -/
theorem Watched.untouched (h : Watched odds s t) (hk : k < odds.length) :
    Untouched s (resetState (abandoned k s t)) := by
  obtain ⟨regs, nsp, refresh⟩ := abandoned_shows h.now_shows (h.next_shows hk)
  exact untouched_resetState regs nsp h.mem refresh (abandoned_cfg k s t)

section
variable (hb : s.begins p = true) (hpc : s.pcReady = true)
  (htrap : firstWordTrap (s.peekWord .prog (evenAddress s.pc)) s = none)
include hb hpc htrap

/-- After the fetches the instruction runs, with its points kept. -/
theorem work_traced (h : s.fetched = some (i, n)) :
    ∃ v, work p (traced s) = exec i v ∧ ReadsEven n (traced s) v ∧
      v = { (traced s).fetchedTo n with bus := v.bus, trace := v.trace } := by
  obtain ⟨hr, ha, hh, hrep⟩ := (State.begins_iff p s).1 hb
  rw [work_fetches (s := traced s) hr ha hh hrep]
  exact runInstruction_ok (s := traced s) hpc htrap h

/-- Before the last fetch nothing of the instruction is met. -/
theorem interruptedAfter_before (h : s.fetched = some (i, n)) (hk : k < n) :
    ∃ t, interruptedAfter k p s = .next t ∧ Untouched s t :=
  interruptedAfter_fetching hb (by rwa [State.fetchedWords_eq htrap h]) (.inr hpc)

/-- A reset in the step of LDB leaves every byte register but its own. -/
theorem interruptedAfter_ldb (h : s.fetched = some (.ldb d (.mem m), n)) :
    ∃ t, interruptedAfter k p s = .next t ∧ (k ≤ n → Untouched s t) ∧ (∀ b, b ≠ d → t.byte b = s.byte b) ∧
      (∀ c : Fin 16, c.val ≠ (byteHome d).toNat → t.regs[c] = s.regs[c]) ∧ t.nsp = s.nsp ∧ t.mem = s.mem := by
  by_cases hk : k < n
  · obtain ⟨t, e, hu⟩ := interruptedAfter_before hb hpc htrap h hk
    obtain ⟨regs, nsp, mem, -⟩ := id hu
    exact ⟨t, e, fun _ => hu, fun b _ => hu.byte b, fun c _ => by rw [regs], nsp, mem⟩
  · obtain ⟨v, ev, r, hv⟩ := work_traced hb hpc htrap h
    obtain ⟨w, ew, hw, hd⟩ := ldb_watched (d := d) (m := m) r
    have hsv : BesideByte d s w := by
      rw [hv] at hd
      exact ⟨hd.bytes, hd.regs, hd.nsp, hd.refresh⟩
    have hk' : s.fetchedWords ≤ k := by rw [State.fetchedWords_eq htrap h]; omega
    have e := interruptedAfter_running hk' (ev.trans ew) (hw.oddBefore_last.trans (ite_self _))
    have ha : BesideByte d s (abandoned k s w) :=
      hw.next_shows_or.elim (fun hs => abandoned_besideByte hw.now_shows hs (BesideByte.refl d s))
        fun hs => abandoned_besideByte hw.now_shows hs hsv
    exact ⟨_, e, fun hkn => hw.untouched (by simp; omega),
      fun b hbd => (byte_resetState b _).trans (ha.bytes b hbd), ha.regs, ha.nsp, hw.mem⟩

/-- A reset in the step of LD at an odd address: before the access nothing is written, after it the stop stands. -/
theorem interruptedAfter_ld (h : s.fetched = some (.ld d (.mem m), n)) (hl : s.ldReady .w (.mem m) = false) :
    (k ≤ n → ∃ t, interruptedAfter k p s = .next t ∧ Untouched s t) ∧
      (n < k → interruptedAfter k p s = .fault (.misaligned (ldEA m s).2)) := by
  obtain ⟨hodd, hm⟩ : (ldEA m s).2.getLsbD 0 = true ∧ s.cfg.misaligned = .refuse := by
    cases hm : s.cfg.misaligned <;> simp_all [State.ldReady, State.reaches]
  obtain ⟨v, ev, r, hv⟩ := work_traced hb hpc htrap h
  obtain ⟨w, ew, hw⟩ := ld_watched (d := d) (m := m) r (by rw [hv]; rfl)
  have ho : oddPart (ldEA m v).2 = some (ldEA m s).2 := by
    rw [show ldEA m v = ldEA m s by rw [hv]; rfl, oddPart, if_pos hodd]
  rw [ho] at hw
  have hn := State.fetchedWords_eq htrap h
  refine ⟨fun hk => ?_, fun hk => ?_⟩
  · by_cases hk' : k < n
    · exact interruptedAfter_before hb hpc htrap h hk'
    · exact ⟨_, interruptedAfter_running (by omega) (ev.trans ew) (hw.oddBefore_last.trans (if_pos hk)),
        hw.untouched (by simp; omega)⟩
  · exact interruptedAfter_misaligned (by omega) (ev.trans ew)
      (hw.oddBefore_last.trans (if_neg (by omega))) hm

end

/-! ### The obligation -/

theorem step_asserted (s : State) (h : (takePins s).1.reset = .asserted) : step s = .next (resetState s.pinned) := by
  rw [step_eq, stepWith, h]

theorem step_during (hp : s.pins = { p with reset := .during k } :: ps) :
    step s = interruptedAfter k { p with reset := .during k } { s with pins := ps } := by
  rw [step_eq, State.pinned, hp, takePins]
  simp only [hp]
  rfl

/-- An NMI edge in the step of the two fetches comes after them (log entry 21). -/
theorem step_resetting (s : State) (h : (takePins s).1.reset = .released) (hr : s.resetting = true) :
    step s = answer ((resetSequence s.pinned).map (latchNmi (takePins s).1)) := by
  rw [step_eq, stepWith, h]
  exact if_pos hr

theorem resetSequence_ok (s : State) :
    ∃ trace, resetSequence s = .ok
      { resetState s with
        resetting := false, trace := trace
        fcw := Fcw.legal s.cfg ((resetState s).peekWord .prog 0x0002), pc := (resetState s).peekWord .prog 0x0004
        bus := .transfer .program true true false 0x0004 ((resetState s).peekWord .prog 0x0004) ::
          .transfer .program true true false 0x0002 ((resetState s).peekWord .prog 0x0002) :: s.bus } :=
  loadStatus_even rfl rfl { resetState s with resetting := false }

/-- The step without the reset in it would fetch an instruction. -/
theorem begins_of_fetches (h : { s with pins := { p with reset := .released } :: ps }.fetches = true) :
    State.begins { p with reset := .during k } { s with pins := ps } = true := by
  obtain ⟨hqu, hb⟩ := (State.fetches_iff _).1 h
  obtain ⟨hr, hh, hq⟩ := (State.quiet_iff _).1 hqu
  obtain ⟨-, hres⟩ := (State.running_iff _).1 hr
  exact (State.begins_iff _ _).2 ⟨hres, hq, hh, hb⟩

/-- Settles O9: RESETF active, its end, REFRESH, and the step that a reset abandons at its `k`-th point. -/
theorem stepResets : Obligations.StepResets := by
  refine ⟨⟨fun s h => ⟨Config.refreshRow s.freeCount, step_asserted s h⟩, fun s h hr => ?_⟩,
    fun s row => ⟨fun h => State.refreshKept_stopped row (s.rowRuns_stopped h),
      fun hrev hren => State.refreshKept_running row (s.rowRuns_running hrev hren)⟩,
    fun k p ps s hp => ?_, ?_⟩
  · obtain ⟨trace, e⟩ := resetSequence_ok s.pinned
    refine ⟨Config.refreshRow s.freeCount, trace, ?_⟩
    rw [step_resetting s h hr, e]
    rfl
  · rw [step_during hp]
    refine ⟨fun t e => ?_,
      fun hf hk => interruptedAfter_fetching (begins_of_fetches hf) (hk ▸ State.fetchedWords_pos _) (.inl hk),
      fun hf hpc htrap => ⟨fun i n h hk => interruptedAfter_before (begins_of_fetches hf) hpc htrap h hk,
        fun d m n h => interruptedAfter_ldb (begins_of_fetches hf) hpc htrap h,
        fun d m n h hl => interruptedAfter_ld (begins_of_fetches hf) hpc htrap h hl⟩⟩
    obtain ⟨u, rfl, -, hpins, -, -, hmem⟩ := interruptedAfter_next e
    exact ⟨rfl, hpins, rfl, State.refreshKept_ren .., rfl, rfl, rfl, rfl, hmem⟩
  · exact ⟨_, rfl⟩

end

end Sys2Proof.Machine
end

section
/-! What memory accesses give and leave: at even addresses transaction by transaction, and reads after a store of every
size (R78, R80 to R84). -/

namespace Sys2Proof.Machine

section
variable {a : Word} {s t : State}

/-! ### Even addresses -/

/-- An even address is the one its access uses. -/
theorem evenAddress_of_even (h : a.getLsbD 0 = false) : evenAddress a = a := by
  have e := alignBy_eq .ignoreA0 .misaligned a
  simp only [alignBy, h, Bool.false_eq_true, if_false, true_or, if_true] at e
  exact (Except.ok.inj e).symm

/-- The second word of a long word comes two bytes after the first (R82). -/
theorem evenAddress_second (a : Word) : evenAddress (a + 2) = evenAddress a + 2 := by
  have shifted (b : Word) : evenAddress b = (b >>> 1) <<< 1 := by
    refine BitVec.eq_of_getLsbD_eq fun i hi => ?_
    unfold evenAddress
    interval_cases i <;> simp
  rw [shifted, shifted]
  apply BitVec.eq_of_toNat_eq
  simp [Nat.shiftLeft_eq, Nat.shiftRight_eq_div_pow]
  omega

/-- An even address asks for no alignment policy (R86). -/
theorem State.reaches_of_even (h : a.getLsbD 0 = false) (z : Size) (s : State) : s.reaches z a = true := by
  rw [State.reaches, h]
  simp

/-- Whether an access completes is a matter of the parameters alone. -/
theorem State.reaches_congr (cfg : t.cfg = s.cfg) (z : Size) (a : Word) : t.reaches z a = s.reaches z a := by
  rw [State.reaches, State.reaches, cfg]

theorem readWordAs_even (h : a.getLsbD 0 = false) (st : Status) (sp : Space) (s : State) :
    readWordAs st sp a s =
      .ok (s.peekWord sp a, s.note (.transfer st s.fcw.sys true false a (s.peekWord sp a))) := by
  rw [readWordAs_eq, if_pos (State.reaches_of_even h .w s), State.valueAt, evenAddress_of_even h, oddPart, h]
  rfl

theorem writeWordAs_even (h : a.getLsbD 0 = false) (st : Status) (sp : Space) (v : Word) (s : State) :
    writeWordAs st sp a v s = .ok ((s.pokeWord sp a v).note (.transfer st s.fcw.sys false false a v)) := by
  rw [writeWordAs_eq, if_pos (State.reaches_of_even h .w s), State.putAt, evenAddress_of_even h, oddPart, h]
  rfl

/-! ### Bytes and words after a store of a word -/

/-- What a store of a word leaves at every address of its space (R83). -/
theorem State.peek_pokeWord (s : State) (sp : Space) (a b v : Word) :
    (s.pokeWord sp a v).peek sp b = if b = a + 1 then loByte v else if b = a then hiByte v else s.peek sp b := by
  rw [State.pokeWord, State.peek_poke, State.peek_poke]

/-- A store of a word leaves the next word. -/
theorem State.peekWord_pokeWord_second (s : State) (sp : Space) (a v : Word) :
    (s.pokeWord sp (a + 2) v).peekWord sp a = s.peekWord sp a := by
  have h₁ : a ≠ a + 2 + 1 := by bv_omega
  have h₂ : a ≠ a + 2 := by bv_omega
  have h₃ : a + 1 ≠ a + 2 + 1 := by bv_omega
  have h₄ : a + 1 ≠ a + 2 := by bv_omega
  simp only [State.peekWord, State.peek_pokeWord, h₁, h₂, h₃, h₄, if_false]

/-- Settles O22: each access by its transactions, a long word as two words. -/
theorem memoryAccess : Obligations.MemoryAccess := by
  refine fun sp a s => ⟨rfl, fun h => readWordAs_even h _ sp s, fun h => ?_, fun v => ⟨_, rfl, ?_, fun k hk => ?_, rfl⟩,
    fun v h => ⟨_, writeWordAs_even h _ sp v s, ?_, ?_, fun k hk hk' => State.read_pokeWord_ne s sp a v k hk hk', rfl⟩,
    fun v _ => rfl⟩
  · have h₂ : (a + 2).getLsbD 0 = false := (evenAddress_add_two a).trans h
    have e : a + 2 + 1 = a + 3 := BitVec.add_assoc ..
    simp only [load, readWordAs_even h, readWordAs_even h₂, bind, Except.bind, State.peekWord, e]
    rfl
  · exact (State.peek_poke s sp a a v).trans (if_pos rfl)
  · exact Memory.read_write_ne s.mem v hk
  · have ha : a ≠ a + 1 := by bv_omega
    exact (State.peek_pokeWord s sp a a v).trans ((if_neg ha).trans (if_pos rfl))
  · exact (State.peek_pokeWord s sp a (a + 1) v).trans (if_pos rfl)

/-! ### Values after a store of their size -/

/-- The halves of a long word make it up again. -/
theorem append_halves (v : Long) : v.extractLsb' 16 16 ++ v.extractLsb' 0 16 = v := by
  refine BitVec.eq_of_getLsbD_eq fun i hi => ?_
  simp
  grind

/-- A stored value is what stands there, at every size; bit 0 of the address is dropped on both ways (R84, R86). -/
theorem State.valueAt_putAt_self (z : Size) (sp : Space) (a : Word) (v : BitVec z.bits) (s : State) :
    (s.putAt z sp a v).valueAt z sp a = v := by
  cases z with
  | b => exact (State.peek_poke s sp a a v).trans (if_pos rfl)
  | w => exact State.peekWord_pokeWord_self s sp _ v
  | l =>
    simp only [State.valueAt, State.putAt, evenAddress_second, State.peekWord_pokeWord_second,
      State.peekWord_pokeWord_self, append_halves]

/-- A store leaves every byte it does not cover (R83). -/
theorem State.read_putAt_of_not_covers {z : Size} {sp : Space} {k : Nat} (v : BitVec z.bits)
    (h : s.covers z sp a k = false) : Memory.read (s.putAt z sp a v).mem k = Memory.read s.mem k := by
  cases z with
  | b => exact Memory.read_write_ne s.mem v (by simpa [State.covers] using h)
  | w =>
    obtain ⟨h₀, h₁⟩ : k ≠ s.key sp (evenAddress a) ∧ k ≠ s.key sp (evenAddress a + 1) := by
      simpa [State.covers] using h
    exact State.read_pokeWord_ne s sp _ v k h₀ h₁
  | l =>
    obtain ⟨⟨⟨h₀, h₁⟩, h₂⟩, h₃⟩ : ((k ≠ s.key sp (evenAddress a) ∧ k ≠ s.key sp (evenAddress a + 1)) ∧
        k ≠ s.key sp (evenAddress (a + 2))) ∧ k ≠ s.key sp (evenAddress (a + 2) + 1) := by
      simpa [State.covers] using h
    exact (State.read_pokeWord_ne (s.pokeWord sp (evenAddress a) (v.extractLsb' 16 16)) sp _ _ k h₂ h₃).trans
      (State.read_pokeWord_ne s sp _ _ k h₀ h₁)

/-- A store changes memory alone. -/
theorem State.putAt_eq (z : Size) (sp : Space) (a : Word) (v : BitVec z.bits) (s : State) :
    s.putAt z sp a v = { s with mem := (s.putAt z sp a v).mem } := by cases z <;> rfl

theorem State.putAt_cfg (z : Size) (sp : Space) (a : Word) (v : BitVec z.bits) (s : State) :
    (s.putAt z sp a v).cfg = s.cfg := by rw [State.putAt_eq]

/-- What stands at an address does not depend on the bus record or the points. -/
theorem State.valueAt_bus (z : Size) (sp : Space) (a : Word) (s : State) (bus : List BusEvent)
    (trace : Option (List Point)) : State.valueAt z sp a { s with bus := bus, trace := trace } = s.valueAt z sp a := by
  cases z <;> rfl

/-- Settles O23. -/
theorem storedValueReadsBack : Obligations.StoredValueReadsBack := by
  intro z sp a v s t h
  obtain ⟨hr, bus, trace, rfl⟩ := store_ok h
  have ready : State.reaches z a { s.putAt z sp a v with bus := bus, trace := trace } = true :=
    (State.reaches_congr (State.putAt_cfg z sp a v s) z a).trans hr
  obtain ⟨bus', trace', e⟩ := load_ready z sp ready
  exact ⟨⟨_, by rw [e, State.valueAt_bus, State.valueAt_putAt_self]⟩, fun k hk => State.read_putAt_of_not_covers v hk⟩

end

end Sys2Proof.Machine
end

section
/-! What an instruction with a memory destination leaves alone (R83). One relation, `Stored`, says what the store at the
place `storage` names can change. -/

namespace Sys2Proof.Machine

section
variable {z : Size} {sp : Space} {a : Word} {s : State} {m : Mem}

/-- A read that cannot complete stops with its address (R86). -/
theorem load_odd (h : s.reaches z a = false) (sp : Space) : load z sp a s = .error (.fault (.misaligned a)) := by
  have e := load_spec z sp a s
  rwa [if_neg (Bool.not_eq_true _ ▸ h)] at e

/-- A write that cannot complete stops with its address (R86). -/
theorem store_odd (h : s.reaches z a = false) (sp : Space) (v : BitVec z.bits) :
    store z sp a v s = .error (.fault (.misaligned a)) := by
  have e := store_spec z sp a v s
  rwa [if_neg (Bool.not_eq_true _ ▸ h)] at e

theorem modify_odd (h : s.memReady z m = false) (f : Unary z) :
    modify z (.mem m) f s = .error (.fault (.misaligned (memEA m s).2)) := bind_stops (load_odd h _)

/-- From `s` to `t` a value went to `place`; beyond it only flags, the bus record and the points differ. -/
def Stored (place : Size × Space × Word) (s t : State) : Prop :=
  ∃ v k bus trace, SameControl s.fcw k ∧
    t = { s with mem := (s.putAt place.1 place.2.1 place.2.2 v).mem, fcw := k, bus := bus, trace := trace }

theorem store_stored (z : Size) (sp : Space) (a : Word) (v : BitVec z.bits) (s : State) :
    Gives (store z sp a v s) (Stored (z, sp, a) s) := by
  refine ⟨fun t h => ?_⟩
  obtain ⟨-, bus, trace, rfl⟩ := store_ok h
  exact ⟨v, s.fcw, bus, trace, SameControl.refl _, by rw [State.putAt_eq]⟩

theorem writeDst_stored (z : Size) (m : Mem) (v : BitVec z.bits) (s : State) :
    Gives (writeDst z (.mem m) v s) (Stored (z, memEA m s) s) := store_stored ..

theorem modify_stored (z : Size) (m : Mem) (s : State) (f : Unary z) (hf : ∀ v k, SameControl k (f v k).2) :
    Gives (modify z (.mem m) f s) (Stored (z, memEA m s) s) := by
  cases h : s.memReady z m with
  | true =>
    obtain ⟨bus, trace, e⟩ := modify_spec z (.mem m) f s h
    rw [e, State.putDst, State.putAt_eq]
    exact Gives.ok ⟨_, _, bus, trace, hf _ _, rfl⟩
  | false =>
    rw [modify_odd h]
    exact Gives.error

theorem storeReg_stored (z : Size) (m : LdMem) (c : Reg) (s : State) :
    Gives (storeReg z m c s) (Stored (z, ldEA m s) s) := Gives.bindAny fun _ => store_stored ..

theorem storeRelative_stored (z : Size) (disp : Word) (c : Reg) (s : State) :
    Gives (storeRelative z disp c s) (Stored (z, .prog, relEA disp s) s) := Gives.bindAny fun _ => store_stored ..

/-- An instruction with a memory destination stores at the place `storage` names, once. -/
theorem exec_stored (i : Instr) (s : State) {place : Size × Space × Word} (h : storage i s = some place) :
    LeadsTo (exec i s) (Stored place s) := by
  cases i with dsimp only [exec]
  | clr dst | clrb dst | ldImm dst | ldbImm dst =>
    cases dst with
    | reg c => cases h
    | mem m => cases h; exact Gives.leadsTo (writeDst_stored ..)
  | inc dst | incb dst | dec dst | decb dst | neg dst | negb dst | com dst | comb dst | tset dst | tsetb dst
  | resBit dst | resBitB dst | setBit dst | setBitB dst =>
    cases dst with
    | reg c => cases h
    | mem m => cases h; exact Gives.leadsTo (modify_stored _ _ _ _ fun _ _ => ⟨rfl, rfl, rfl, rfl⟩)
  | ldStore | ldbStore | ldlStore => cases h; exact Gives.leadsTo (storeReg_stored ..)
  | ldrStore | ldrbStore | ldrlStore => cases h; exact Gives.leadsTo (storeRelative_stored ..)
  | _ => cases h

/-- Settles O25. -/
theorem memoryDestinationFrame : Obligations.MemoryDestinationFrame := by
  intro i z sp a s t hi h
  obtain ⟨v, k, bus, trace, hk, rfl⟩ := (exec_stored i s hi).of_next t h
  exact ⟨fun _ hc => State.read_putAt_of_not_covers v hc, rfl, rfl, rfl, rfl, rfl, rfl, rfl, rfl,
    hk.sys, hk.epa, hk.vie, hk.nvie⟩

end

end Sys2Proof.Machine
end

section
/-! Memory operations with the transactions they make, and jumps, calls and returns (R14, R71, R80 to R83, R90, R600 to
R605). -/

namespace Sys2Proof.Machine

section
variable {z : Size} {a : Word} {s : State}

/-! ### Transactions added to the record -/

/-- `s` after the transactions `es`, newest first, with the points `trace`. -/
def State.recorded (es : List BusEvent) (trace : Option (List Point)) (s : State) : State :=
  { s with bus := es ++ s.bus, trace := trace }

theorem does_iff (o : Host.Outcome State Fault Refusal) (t : State) (es : List BusEvent) :
    Does o t es ↔ ∃ trace, o = .next (t.recorded es trace) := Iff.rfl

section
variable (es : List BusEvent) (trace : Option (List Point)) (s : State)

@[simp] theorem State.recorded_cfg : (s.recorded es trace).cfg = s.cfg := rfl
@[simp] theorem State.recorded_fcw : (s.recorded es trace).fcw = s.fcw := rfl
@[simp] theorem State.recorded_pc : (s.recorded es trace).pc = s.pc := rfl
@[simp] theorem State.recorded_word (c : Reg) : (s.recorded es trace).word c = s.word c := rfl
@[simp] theorem State.recorded_reaches (z : Size) (a : Word) : (s.recorded es trace).reaches z a = s.reaches z a := rfl
@[simp] theorem State.recorded_peekWord (sp : Space) (a : Word) :
    (s.recorded es trace).peekWord sp a = s.peekWord sp a := rfl
@[simp] theorem State.recorded_valueAt (z : Size) (sp : Space) (a : Word) :
    (s.recorded es trace).valueAt z sp a = s.valueAt z sp a := s.valueAt_bus ..
@[simp] theorem State.recorded_writeEvents (z : Size) (sp : Space) (a : Word) (v : BitVec z.bits) :
    (s.recorded es trace).writeEvents z sp a v = s.writeEvents z sp a v := rfl
@[simp] theorem State.recorded_setPc (a : Word) : (s.recorded es trace).setPc a = (s.setPc a).recorded es trace := rfl
@[simp] theorem State.recorded_setFcw (k : Fcw) : (s.recorded es trace).setFcw k = (s.setFcw k).recorded es trace := rfl
@[simp] theorem State.recorded_putAt (z : Size) (sp : Space) (a : Word) (v : BitVec z.bits) :
    (s.recorded es trace).putAt z sp a v = (s.putAt z sp a v).recorded es trace := by cases z <;> rfl
@[simp] theorem State.recorded_setWord (c : Reg) (v : Word) :
    (s.recorded es trace).setWord c v = (s.setWord c v).recorded es trace := by
  rw [State.recorded, State.recorded, State.setWord_bus]
  exact State.setReg_bus .w ..
@[simp] theorem State.recorded_recorded (es' : List BusEvent) (trace' : Option (List Point)) :
    (s.recorded es trace).recorded es' trace' = s.recorded (es' ++ es) trace' := by
  simp [State.recorded]

end

/-! ### Accesses, transaction by transaction -/

@[simp] theorem State.access_reaches (z : Size) (a : Word) (s : State) (o : Option Word) (e : BusEvent) :
    (s.access o e).reaches z a = s.reaches z a := rfl
@[simp] theorem State.putAt_reaches (z y : Size) (sp : Space) (a b : Word) (v : BitVec y.bits) (s : State) :
    (s.putAt y sp b v).reaches z a = s.reaches z a := State.reaches_congr (State.putAt_cfg ..) z a
@[simp] theorem State.setWord_reaches (z : Size) (a : Word) (s : State) (c : Reg) (v : Word) :
    (s.setWord c v).reaches z a = s.reaches z a := State.reaches_congr (s.setWord_cfg c v) z a

/-- A read that completes makes the transactions `readEvents` says (R80 to R82). -/
theorem load_events (sp : Space) (h : s.reaches z a = true) :
    ∃ trace, load z sp a s = .ok (s.valueAt z sp a, s.recorded (s.readEvents z sp a) trace) := by
  cases z with
  | b => exact ⟨_, rfl⟩
  | w =>
    rw [load, readWordAs_eq, if_pos h]
    exact ⟨_, rfl⟩
  | l =>
    have h : s.reaches .w a = true := h
    simp only [load, readWordAs_eq, State.access_reaches, State.reaches_add_two, h, if_true, bind, Except.bind]
    exact ⟨_, rfl⟩

theorem writeWordAs_events (st : Status) (sp : Space) (v : Word) (h : s.reaches .w a = true) : ∃ trace,
    writeWordAs st sp a v s =
      .ok ((s.putAt .w sp a v).recorded [.transfer st s.fcw.sys false false (evenAddress a) v] trace) := by
  rw [writeWordAs_eq, if_pos h]
  exact ⟨_, rfl⟩

/-- A write that completes makes the transactions `writeEvents` says (R83). -/
theorem store_events (sp : Space) (v : BitVec z.bits) (h : s.reaches z a = true) :
    ∃ trace, store z sp a v s = .ok ((s.putAt z sp a v).recorded (s.writeEvents z sp a v) trace) := by
  cases z with
  | b => exact ⟨_, rfl⟩
  | w => exact writeWordAs_events sp.status sp v h
  | l =>
    have h : s.reaches .w a = true := h
    obtain ⟨trace, e⟩ := writeWordAs_events sp.status sp (v.extractLsb' 16 16) h
    obtain ⟨trace', e'⟩ := writeWordAs_events sp.status sp (v.extractLsb' 0 16)
      (s := (s.putAt .w sp a (v.extractLsb' 16 16)).recorded (s.writeEvents .w sp a (v.extractLsb' 16 16)) trace)
      (a := a + 2) (by rw [State.recorded_reaches, State.putAt_reaches, State.reaches_add_two, h])
    refine ⟨trace', (bind_goesOn e).trans (e'.trans ?_)⟩
    rw [State.recorded_putAt, State.recorded_recorded, State.putAt_long]
    rfl

@[simp] theorem State.setWord_writeEvents (z : Size) (sp : Space) (a : Word) (v : BitVec z.bits) (s : State) (c : Reg)
    (w : Word) : (s.setWord c w).writeEvents z sp a v = s.writeEvents z sp a v := by
  simp only [State.writeEvents, State.setWord_fcw]

/-- A push makes one write, at the lowered stack pointer (R14). -/
theorem push_events (v : Word) (h : s.reaches .w (s.word 15 - 2) = true) : ∃ trace, push v s =
    .ok (((s.setWord 15 (s.word 15 - 2)).putAt .w .stack (s.word 15 - 2) v).recorded
      (s.writeEvents .w .stack (s.word 15 - 2) v) trace) := by
  obtain ⟨trace, e⟩ := store_events .stack v ((State.setWord_reaches ..).trans h)
  rw [State.setWord_writeEvents] at e
  exact ⟨trace, e⟩

/-- A push after the transactions `es`. -/
theorem push_after (v : Word) (es : List BusEvent) (trace : Option (List Point))
    (h : s.reaches .w (s.word 15 - 2) = true) : ∃ trace', push v (s.recorded es trace) =
      .ok (((s.setWord 15 (s.word 15 - 2)).putAt .w .stack (s.word 15 - 2) v).recorded
        (s.writeEvents .w .stack (s.word 15 - 2) v ++ es) trace') := by
  obtain ⟨trace', e⟩ := push_events (s := s.recorded es trace) v h
  rw [State.recorded_word, State.recorded_setWord, State.recorded_putAt, State.recorded_recorded] at e
  exact ⟨trace', e⟩

/-- A pop makes one read, at the stack pointer (R14). -/
theorem pop_events (h : s.reaches .w (s.word 15) = true) : ∃ trace, pop s =
    .ok (s.valueAt .w .stack (s.word 15),
      (s.setWord 15 (s.word 15 + 2)).recorded (s.readEvents .w .stack (s.word 15)) trace) := by
  obtain ⟨trace, e⟩ := load_events .stack h
  rw [pop, bind_goesOn e]
  exact ⟨trace, by simp only [State.recorded_word, State.recorded_setWord]; rfl⟩

/-- The discarded read of JP and CALL leaves its transaction alone (R90, log entry 28). -/
theorem discardTarget_events (m : Mem) (s : State) : ∃ trace, discardTarget m s = s.recorded (s.targetEvents m) trace := by
  cases m with
  | ind r => exact ⟨_, rfl⟩
  | da address | x address r => exact ⟨s.trace, rfl⟩

/-! ### Displacements from PC (R120) -/

theorem ofInt_two_mul (x : Int) : BitVec.ofInt 16 (2 * x) = 2 * BitVec.ofInt 16 x := BitVec.ofInt_mul ..

theorem ofInt_toNat (a : Word) : BitVec.ofInt 16 a.toNat = a := by
  rw [BitVec.ofInt_natCast, BitVec.ofNat_toNat, BitVec.setWidth_eq]

theorem add_displacement {n : Nat} (a : Word) (e : BitVec n) :
    a + 2 * e.signExtend 16 = BitVec.ofInt 16 (a.toNat + 2 * e.toInt) := by
  rw [BitVec.ofInt_add, ofInt_two_mul, ofInt_toNat, BitVec.signExtend]

theorem ofInt_sub_two_mul (a : Word) (x : Int) :
    BitVec.ofInt 16 (a.toNat - 2 * x) = a - 2 * BitVec.ofInt 16 x := by
  rw [Int.sub_eq_add_neg, BitVec.ofInt_add, BitVec.ofInt_neg, ofInt_two_mul, ofInt_toNat, BitVec.sub_eq_add_neg]

theorem sub_displacement {n : Nat} (a : Word) (e : BitVec n) :
    a - 2 * e.signExtend 16 = BitVec.ofInt 16 (a.toNat - 2 * e.toInt) := by
  rw [ofInt_sub_two_mul, BitVec.signExtend]

theorem backward_eq (e : BitVec 7) (s : State) :
    backward e s = BitVec.ofInt 16 (s.pc.toNat - 2 * e.toNat) := by
  rw [ofInt_sub_two_mul, BitVec.ofInt_natCast, BitVec.ofNat_toNat, backward]

/-! ### Jumps -/

theorem State.setReg_pc (z : Size) (c : Reg) (v : BitVec z.bits) (s : State) : (s.setReg z c v).pc = s.pc := by
  cases z <;> simp [State.setReg]

/-- The count that reaches zero is the one that was 1 (R602). -/
theorem decrementJump_answers {c : Reg} (hc : regFits z c = true) (e : BitVec 7) (s : State) :
    answer (decrementJump z c e s) =
      .next (if s.reg z c = 1 then s.setReg z c 0
        else (s.setReg z c (s.reg z c - 1)).setPc (BitVec.ofInt 16 (s.pc.toNat - 2 * e.toNat))) := by
  simp only [decrementJump, readReg_eq, writeReg_eq, hc, if_true, bind, Except.bind, backward_eq, State.setReg_pc]
  by_cases h : s.reg z c = 1
  · simp [h]
    rfl
  · have h' : s.reg z c - 1 ≠ 0 := fun e => h (sub_eq_zero.1 e)
    rw [if_neg h, if_neg h']
    rfl

/-- Settles O45. -/
theorem jumpResult : Obligations.JumpResult := by
  refine fun s => ⟨fun cc m => ⟨fun h => ?_, fun h => if_neg (by simp [h])⟩, fun cc e => ?_,
    fun c e => decrementJump_answers (z := .w) rfl e s, fun c e => decrementJump_answers (z := .b) rfl e s⟩
  · obtain ⟨trace, e⟩ := discardTarget_events m s
    exact ⟨trace, (if_pos h).trans (by rw [e]; rfl)⟩
  · rw [← add_displacement]
    exact (apply_ite Host.Outcome.next _ _ _).symm

/-! ### Calls and returns -/

/-- A call, after the transactions `es` of its target, pushes PC and goes on at `a` (R600, R601). -/
theorem callTo_does (a : Word) (es : List BusEvent) (trace : Option (List Point))
    (h : s.reaches .w (s.word 15 - 2) = true) :
    Does (answer (callTo a (s.recorded es trace)))
      (((s.setWord 15 (s.word 15 - 2)).putAt .w .stack (s.word 15 - 2) s.pc).setPc a)
      (s.writeEvents .w .stack (s.word 15 - 2) s.pc ++ es) := by
  obtain ⟨trace', e⟩ := push_after s.pc es trace h
  exact ⟨trace', congrArg answer (bind_goesOn e)⟩

/-- Settles O46. -/
theorem callResult : Obligations.CallResult := by
  refine fun s => ⟨fun h => ⟨fun m hm => ?_, fun e => ?_⟩, fun cc hc h => ?_, fun cc hc => ?_⟩
  · obtain ⟨trace, e⟩ := discardTarget_events m s
    have call : exec (.call m) s = answer (callTo (memEA m s).2 (discardTarget m s)) :=
      congrArg answer (require_goesOn hm)
    rw [call, e]
    exact callTo_does _ _ trace h
  · rw [← sub_displacement]
    exact List.append_nil (s.writeEvents .w .stack (s.word 15 - 2) s.pc) ▸ callTo_does _ [] s.trace h
  · obtain ⟨trace, e⟩ := pop_events h
    exact ⟨trace, congrArg answer ((if_pos hc).trans (bind_goesOn e))⟩
  · exact congrArg answer (if_neg (by simp [hc]))

end

end Sys2Proof.Machine
end

section
/-! The entry sequence with the transactions before it, and the step that takes an interrupt (R1005 to R1010, R1012,
R1013). -/

namespace Sys2Proof.Machine

section
variable {s : State} {e : Event}

/-! ### Addresses in the Program Status Area -/

theorem getLsbD_zero_add (a b : Word) : (a + b).getLsbD 0 = (a.getLsbD 0 ^^ b.getLsbD 0) := by
  rw [BitVec.getLsbD_add (by decide), BitVec.carry_zero, Bool.xor_false]

/-- The entry of every event is at even offsets (R1000). -/
theorem Event.offsets_even (e : Event) (ident : Word) :
    e.fcwOffset.getLsbD 0 = false ∧ (e.pcOffset ident).getLsbD 0 = false := by
  cases e with
  | extended | privileged | systemCall | nmi | nvi => simp [Event.fcwOffset, Event.pcOffset]
  | vi =>
    refine ⟨rfl, ?_⟩
    rw [Event.pcOffset, getLsbD_zero_add, two_mul, getLsbD_zero_add, Bool.xor_self]
    rfl

/-- The Program Status Area begins at an even address (R43). -/
theorem State.evenAddress_psa_add (s : State) {offset : Word} (h : offset.getLsbD 0 = false) :
    evenAddress (s.psa + offset) = s.psa + offset := by
  refine evenAddress_of_even ?_
  rw [getLsbD_zero_add, h, State.psa, BitVec.getLsbD_append]
  simp

/-! ### The stack of an entry sequence -/

@[simp] theorem State.putAt_word (z : Size) (sp : Space) (a : Word) (v : BitVec z.bits) (s : State) (c : Reg) :
    (s.putAt z sp a v).word c = s.word c := by cases z <;> rfl
@[simp] theorem State.putAt_psap (z : Size) (sp : Space) (a : Word) (v : BitVec z.bits) (s : State) :
    (s.putAt z sp a v).psap = s.psap := by rw [State.putAt_eq]

theorem State.setMem_setWord (s : State) (m : Memory) (c : Reg) (w : Word) :
    State.setWord { s with mem := m } c w = { s.setWord c w with mem := m } := by
  simp only [State.setWord]
  split <;> rfl

theorem State.poke_setWord (s : State) (sp : Space) (a : Word) (v : Byte) (c : Reg) (w : Word) :
    (s.poke sp a v).setWord c w = (s.setWord c w).poke sp a v := by
  rw [State.poke, State.setMem_setWord, State.poke, State.setWord_mem, State.setWord_key]

/-- A store and a register write can change places. -/
theorem State.putAt_setWord (z : Size) (sp : Space) (a : Word) (v : BitVec z.bits) (s : State) (c : Reg) (w : Word) :
    (s.putAt z sp a v).setWord c w = (s.setWord c w).putAt z sp a v := by
  cases z <;> simp only [State.putAt, State.pokeWord, State.poke_setWord]

theorem sub_two_sub_two (a : Word) : a - 2 - 2 = a - 4 := by bv_omega
theorem sub_four_sub_two (a : Word) : a - 4 - 2 = a - 6 := by bv_omega

/-- An entry sequence can push where its first push can. -/
theorem State.reaches_sub_two (s : State) (a : Word) : s.reaches .w (a - 2) = s.reaches .w a := by
  rw [← State.reaches_add_two, BitVec.sub_add_cancel]

@[simp] theorem State.recorded_psa (es : List BusEvent) (trace : Option (List Point)) (s : State) :
    (s.recorded es trace).psa = s.psa := rfl
@[simp] theorem State.recorded_fcwWord (es : List BusEvent) (trace : Option (List Point)) (s : State) :
    (s.recorded es trace).fcwWord = s.fcwWord := rfl

theorem State.pushed_psa (savedPc ident : Word) (s : State) : (s.pushed savedPc ident).psa = s.psa := by
  simp only [State.psa, State.pushed, State.putAt_psap, State.setWord_psap, State.setFcw_psap]

theorem State.pushed_cfg (savedPc ident : Word) (s : State) : (s.pushed savedPc ident).cfg = s.cfg := by
  simp only [State.pushed, State.putAt_cfg, State.setWord_cfg, State.setFcw_cfg]

/-- `entered` reads FCW and PC in the state the pushes leave. -/
theorem State.entered_eq (e : Event) (savedPc ident : Word) (s : State) : s.entered e savedPc ident =
    ((s.pushed savedPc ident).setFcw (Fcw.legal (s.pushed savedPc ident).cfg
      ((s.pushed savedPc ident).peekWord .prog ((s.pushed savedPc ident).psa + e.fcwOffset)))).setPc
        ((s.pushed savedPc ident).peekWord .prog ((s.pushed savedPc ident).psa + e.pcOffset ident)) := by
  rw [State.pushed_psa, State.pushed_cfg, State.entered]

/-- The record and the points play no part in an entry sequence. -/
theorem State.entered_recorded (e : Event) (savedPc ident : Word) (es : List BusEvent) (trace : Option (List Point))
    (s : State) : (s.recorded es trace).entered e savedPc ident = (s.entered e savedPc ident).recorded es trace := by
  have p : (s.recorded es trace).pushed savedPc ident = (s.pushed savedPc ident).recorded es trace := by
    simp only [State.pushed, State.recorded_fcw, State.recorded_fcwWord, State.recorded_setFcw, State.recorded_word,
      State.recorded_setWord, State.recorded_putAt]
  simp only [State.entered_eq, p, State.recorded_cfg, State.recorded_psa, State.recorded_peekWord,
    State.recorded_setFcw, State.recorded_setPc]

/-- Three pushes, the values from the old stack pointer downwards (R14). -/
theorem pushes_events (a b c : Word) (h : s.reaches .w (s.word 15) = true) :
    ∃ t₁ t₂ es trace, push a s = .ok t₁ ∧ push b t₁ = .ok t₂ ∧ push c t₂ =
      .ok (((((s.setWord 15 (s.word 15 - 6)).putAt .w .stack (s.word 15 - 2) a).putAt .w .stack (s.word 15 - 4) b).putAt
        .w .stack (s.word 15 - 6) c).recorded es trace) := by
  obtain ⟨trace, e⟩ := push_events a (by rwa [State.reaches_sub_two])
  obtain ⟨trace', e'⟩ := push_after b (s.writeEvents .w .stack (s.word 15 - 2) a) trace
    (s := (s.setWord 15 (s.word 15 - 2)).putAt .w .stack (s.word 15 - 2) a) (by
      rw [State.reaches_sub_two, State.putAt_word, State.word_setWord_self, State.putAt_reaches, State.setWord_reaches,
        State.reaches_sub_two, h])
  simp only [State.putAt_word, State.word_setWord_self, State.putAt_setWord, State.setWord_setWord, sub_two_sub_two] at e'
  obtain ⟨trace'', e''⟩ := push_after c _ trace'
    (s := ((s.setWord 15 (s.word 15 - 4)).putAt .w .stack (s.word 15 - 2) a).putAt .w .stack (s.word 15 - 4) b) (by
      rw [State.reaches_sub_two, State.putAt_word, State.putAt_word, State.word_setWord_self, State.putAt_reaches,
        State.putAt_reaches, State.setWord_reaches, ← sub_two_sub_two, State.reaches_sub_two, State.reaches_sub_two, h])
  simp only [State.putAt_word, State.word_setWord_self, State.putAt_setWord, State.setWord_setWord,
    sub_four_sub_two] at e''
  exact ⟨_, _, _, _, e, e', e''⟩

/-- An entry sequence that can use the system stack leaves `entered` and adds its own transactions (R1010, R1013). -/
theorem enter_events (e : Event) (savedPc ident : Word) (h : s.entryReady = true) :
    ∃ es trace, enter e savedPc ident s = .ok ((s.entered e savedPc ident).recorded es trace) := by
  obtain ⟨t₁, t₂, es, trace, p₁, p₂, p₃⟩ :=
    pushes_events (s := s.setFcw { s.fcw with sys := true }) savedPc s.fcwWord ident h
  obtain ⟨hf, hp⟩ := e.offsets_even ident
  obtain ⟨trace', l⟩ := loadStatus_even ((s.pushed savedPc ident).evenAddress_psa_add hf)
    ((s.pushed savedPc ident).evenAddress_psa_add hp) ((s.pushed savedPc ident).recorded es trace)
  have p₃ : push ident t₂ = .ok ((s.pushed savedPc ident).recorded es trace) := p₃
  rw [State.entered_eq]
  generalize s.pushed savedPc ident = u at p₃ l
  have pushed : enter e savedPc ident s = loadStatus ((u.recorded es trace).psa + e.fcwOffset)
      ((u.recorded es trace).psa + e.pcOffset ident) (u.recorded es trace) :=
    (bind_goesOn p₁).trans ((bind_goesOn p₂).trans (bind_goesOn p₃))
  rw [pushed, State.recorded_psa, l]
  exact ⟨_ :: _ :: es, trace', rfl⟩

/-! ### The acknowledge -/

/-- What an acknowledge leaves before the entry sequence, with no NMI latched any more (R1010). -/
def State.acknowledged (s : State) : State :=
  { s with
    pins := s.pins.tail, nmiPending := false, halted := false, repeating := false, freeCount := s.freeCount + 1 }

theorem answersAfter_iff (o : Host.Outcome State Fault Refusal) (t : State) (es : List BusEvent) :
    AnswersAfter o t es ↔ ∃ es' trace, o = .next (t.recorded (es' ++ es) trace) := by
  simp only [AnswersAfter, State.recorded, List.append_assoc]

/-- The two transactions of an interrupt before its entry sequence, newest first (R1010). -/
def State.ackEvents (e : Event) (s : State) : List BusEvent :=
  [.transfer e.ackStatus s.fcw.sys true false 0 (takePins s).1.ident,
   .transfer .firstWord s.fcw.sys true false (evenAddress s.pc) (s.peekWord .prog (evenAddress s.pc))]

/-- The latch that the acknowledge of an NMI clears is not set for the other two (R1005, R1009). -/
theorem interrupt_eq (hn : e = .nmi ∨ s.nmiPending = false ∧ (takePins s).1.nmiEdge = false) :
    ∃ trace, interrupt e (takePins s).1.ident (latchNmi (takePins s).1 s.pinned) =
      enter e s.pc (takePins s).1.ident (s.acknowledged.recorded (s.ackEvents e) trace) := by
  have latch : (if e = .nmi then false else (latchNmi (takePins s).1 s.pinned).nmiPending) = false := by
    obtain rfl | ⟨hl, he⟩ := hn
    · rfl
    · simp [latchNmi, State.pinned, hl, he]
  rw [interrupt]
  dsimp only [discardReadAs, State.note_nmiPending]
  rw [latch]
  exact ⟨_, rfl⟩

/-- An accepted interrupt: the aborted fetch, the acknowledge, and the entry sequence (R1010). -/
theorem step_interrupt (hr : s.running = true) (h : s.entryReady = true) (hq : s.request = some e)
    (hn : e = .nmi ∨ s.nmiPending = false ∧ (takePins s).1.nmiEdge = false) :
    AnswersAfter (step s) (s.acknowledged.entered e s.pc (takePins s).1.ident) (s.ackEvents e) := by
  obtain ⟨trace, e₁⟩ := interrupt_eq hn
  obtain ⟨es, trace', e₂⟩ := enter_events e s.pc (takePins s).1.ident
    (s := s.acknowledged.recorded (s.ackEvents e) trace) h
  rw [State.entered_recorded, State.recorded_recorded] at e₂
  rw [answersAfter_iff, step_request hr hq, e₁]
  exact ⟨es, trace', answer_next.2 e₂⟩

/-- The request of a step in terms of the latch and the pins (R1005, R1008, R1009). -/
theorem State.request_cases (s : State) : s.request =
    if s.nmiPending || (takePins s).1.nmiEdge then some .nmi
    else if (takePins s).1.vi && s.fcw.vie then some .vi
    else if (takePins s).1.nvi && s.fcw.nvie then some .nvi
    else none := State.request_eq s

/-- Settles O8. -/
theorem stepTakesInterrupt : Obligations.StepTakesInterrupt := by
  refine fun s hr h => ⟨fun hn => ?_, fun hl he hv hi => ?_, fun hl he hv hn hi => ?_⟩
  · exact step_interrupt hr h (by rw [State.request_cases, if_pos (by simpa using hn)]) (.inl rfl)
  · exact step_interrupt hr h (by simp [State.request_cases, hl, he, hv, hi]) (.inr ⟨hl, he⟩)
  · have hv' : ((takePins s).1.vi && s.fcw.vie) = false := by rwa [Bool.and_eq_false_iff]
    exact step_interrupt hr h (by simp [State.request_cases, hl, he, hv', hn, hi]) (.inr ⟨hl, he⟩)

end

end Sys2Proof.Machine
end

section
/-! Odd addresses with `MISALIGNED` and `ODD_PC` at `refuse`: which access of an instruction stops it, and where (R86,
R87). -/

namespace Sys2Proof.Machine

section
variable {α : Type} {z : Size} {a : Word} {s : State} {x : Comp State}

/-! ### Stops of a computation -/

theorem faults (h : x = .error (.fault (.misaligned a))) : answer x = .fault (.misaligned a) := by
  rw [h]
  rfl

/-- The first access of an instruction stops it. -/
theorem faults_first {y : Comp α} {f : α → Comp State} (h : y = .error (.fault (.misaligned a))) :
    answer (y >>= f) = .fault (.misaligned a) := faults (bind_stops h)

theorem load_faults {sp : Space} {f : BitVec z.bits × State → Comp State} (h : s.reaches z a = false) :
    answer (load z sp a s >>= f) = .fault (.misaligned a) := faults_first (load_odd h sp)

/-- A check that holds comes before the access that stops the instruction. -/
theorem faults_checked {b : Bool} {r : Refusal} (hb : b = true) (h : x = .error (.fault (.misaligned a))) :
    answer (require b r >>= fun _ => x) = .fault (.misaligned a) := faults ((require_goesOn hb).trans h)

theorem faults_checked_twice {b b' : Bool} {r r' : Refusal} (hb : b = true) (hb' : b' = true)
    (h : x = .error (.fault (.misaligned a))) :
    answer (require b r >>= fun _ => require b' r' >>= fun _ => x) = .fault (.misaligned a) :=
  faults_checked hb ((require_goesOn hb').trans h)

section
variable {i : Instr} {words : Word} {body iter : State → Comp State} {d p r : Reg} {cc : Cond}

theorem privileged_faults (he : exec i s = answer (privileged i words body s))
    (h : body s = .error (.fault (.misaligned a))) : FaultsAt i s a := fun ha => by
  rw [he, privileged_eq, if_pos ha]
  exact faults h

theorem ioOnce_faults (hs : separate d p r = true) (h : iter s = .error (.fault (.misaligned a)))
    (he : exec i s = answer (ioOnce i iter d p r s)) : FaultsAt i s a :=
  privileged_faults he ((require_goesOn hs).trans h)

theorem ioRepeat_faults (hs : separate d p r = true) (h : iter s = .error (.fault (.misaligned a)))
    (hc : blockIoCondition cc = true) (he : exec i s = answer (ioRepeat i iter d p r cc s)) : FaultsAt i s a :=
  privileged_faults he ((require_goesOn hc).trans ((require_goesOn hs).trans (bind_stops h)))

end

/-! ### Words and pointers -/

/-- A long word is as exacting as a word (R86). -/
theorem State.reaches_long (s : State) (a : Word) : s.reaches .l a = s.reaches .w a := rfl

theorem State.reaches_sub_four (s : State) (a : Word) : s.reaches .l (a - 4) = s.reaches .w a := by
  rw [State.reaches_long, ← sub_two_sub_two, State.reaches_sub_two, State.reaches_sub_two]

theorem readWordAs_odd (h : s.reaches .w a = false) (st : Status) (sp : Space) :
    readWordAs st sp a s = .error (.fault (.misaligned a)) := by
  rw [readWordAs_eq, if_neg (by simp [h])]

theorem writeWordAs_odd (h : s.reaches .w a = false) (st : Status) (sp : Space) (v : Word) :
    writeWordAs st sp a v s = .error (.fault (.misaligned a)) := by
  rw [writeWordAs_eq, if_neg (by simp [h])]

theorem push_odd (h : s.reaches .w (s.word 15) = false) (v : Word) :
    push v s = .error (.fault (.misaligned (s.word 15 - 2))) :=
  store_odd ((State.setWord_reaches ..).trans ((s.reaches_sub_two _).trans h)) _ _

theorem pop_odd (h : s.reaches .w (s.word 15) = false) : pop s = .error (.fault (.misaligned (s.word 15))) :=
  bind_stops (load_odd h _)

theorem callTo_odd (h : s.reaches .w (s.word 15) = false) (target : Word) :
    callTo target s = .error (.fault (.misaligned (s.word 15 - 2))) := bind_stops (push_odd h _)

theorem leave_odd (h : s.reaches .w (s.word 15) = false) :
    leave s = .error (.fault (.misaligned (s.word 15 + 2))) := by
  have e := pop_odd (s := s.setWord 15 (s.word 15 + 2))
    (by rw [State.word_setWord_self, State.setWord_reaches, State.reaches_add_two, h])
  rw [State.word_setWord_self] at e
  exact bind_stops e

theorem pushValue_odd {sp : Reg} (h : s.reaches z (s.word sp - z.bytes) = false) (v : BitVec z.bits) :
    pushValue z sp v s = .error (.fault (.misaligned (s.word sp - z.bytes))) :=
  store_odd ((State.setWord_reaches ..).trans h) _ _

/-- A register write leaves an address that avoids the register. -/
theorem memEA_setWord {r : Reg} {m : Mem} (h : memAvoids r m = true) (v : Word) (s : State) :
    memEA m (s.setWord r v) = memEA m s := by
  cases m with
  | ind c | x address c =>
    have hc : c ≠ r := by simpa [memAvoids] using h
    simp only [memEA, State.word_setWord_ne s v hc]
  | da address => rfl

theorem popTo_mem_odd {sp : Reg} {m : Mem} (hs : s.reaches z (s.word sp) = true)
    (hm : s.reaches z (memEA m s).2 = false) (ha : memAvoids sp m = true) :
    answer (popTo z (.mem m) sp s) = .fault (.misaligned (memEA m s).2) := by
  obtain ⟨trace, e⟩ := load_events (dsp sp) hs
  have ea (w : Word) : memEA m ((s.recorded (s.readEvents z (dsp sp) (s.word sp)) trace).setWord sp w) = memEA m s :=
    (memEA_setWord ha w _).trans (by cases m <;> rfl)
  refine faults_checked (by cases z <;> exact ha) ((bind_goesOn e).trans ?_)
  show store z _ _ _ _ = _
  rw [ea]
  exact store_odd (s := (s.recorded _ trace).setWord sp _) ((State.setWord_reaches ..).trans hm) _ _

/-! ### Entry sequences -/

/-- An entry sequence that cannot use the system stack stops at its first push (R1010). -/
theorem enter_odd (h : s.entryReady = false) (e : Event) (savedPc ident : Word) :
    enter e savedPc ident s = .error (.fault (.misaligned (s.regs[15] - 2))) :=
  bind_stops (push_odd (s := s.setFcw { s.fcw with sys := true }) h _)

theorem interrupt_odd (h : s.entryReady = false) (e : Event) (ident : Word) :
    interrupt e ident s = .error (.fault (.misaligned (s.regs[15] - 2))) := by
  rw [interrupt]
  refine (enter_odd ?_ _ _ _).trans ?_
  · exact h
  · rfl

theorem step_request_odd (h : s.entryReady = false) (hr : s.running = true) (hq : s.request.isSome = true) :
    step s = .fault (.misaligned (s.regs[15] - 2)) := by
  obtain ⟨e, hq⟩ := Option.isSome_iff_exists.1 hq
  rw [step_request hr hq]
  exact faults (interrupt_odd (s := latchNmi (takePins s).1 s.pinned) h _ _)

theorem runInstruction_trap_odd (h : s.entryReady = false) (hpc : s.pcReady = true)
    (htrap : (firstWordTrap (s.peekWord .prog (evenAddress s.pc)) s).isSome = true) :
    runInstruction s = .fault (.misaligned (s.regs[15] - 2)) := by
  obtain ⟨e, htrap⟩ := Option.isSome_iff_exists.1 htrap
  obtain ⟨u, e', -, hu, -, -⟩ := fetchFirst_ready hpc
  have htrap' : firstWordTrap (s.peekWord .prog (evenAddress s.pc)) u = some e := by rw [hu]; exact htrap
  have hr : u.regs = s.regs := by rw [hu]
  have hs : u.entryReady = false := by rw [hu]; exact h
  simp only [runInstruction, e', htrap']
  rw [faults (enter_odd hs _ _ _), hr]

/-- The instructions that `privilegedWords` counts are those under the guard of R1030. -/
theorem exec_privileged {i : Instr} {words : Word} (h : privilegedWords i = some words) (s : State) :
    ∃ body, exec i s = answer (privileged i words body s) := by
  cases i with
  | inp | inpb | sin | sinb | outp | outpb | sout | soutb => cases h; exact ⟨_, rfl⟩
  | ind | indb | sind | sindb | ini | inib | sini | sinib | outd | outdb | soutd | soutdb | outi | outib | souti
  | soutib => cases h; exact ⟨_, rfl⟩
  | indr | indrb | sindr | sindrb | inir | inirb | sinir | sinirb | otdr | otdrb | sotdr | sotdrb | otir | otirb | sotir
  | sotirb => cases h; exact ⟨_, rfl⟩
  | di | ei | halt | iret | mset | mres | mbit | mreq | ldctlTo | ldctlFrom | ldps => cases h; exact ⟨_, rfl⟩
  | _ => cases h

/-- The instructions that `extendedWords` counts are those under the guard of R950 and R951. -/
theorem exec_extended {i : Instr} {words : Word} (h : extendedWords i = some words) (s : State) :
    ∃ body, exec i s = answer (extended words body s) := by
  cases i with
  | ldFromEpu | ldToEpu | ldbFcwEpu | ldbEpuFcw | epui | ldFromEpuMem | ldToEpuMem => cases h; exact ⟨_, rfl⟩
  | _ => cases h

theorem exec_privileged_odd (h : s.entryReady = false) {i : Instr} (hi : (privilegedWords i).isSome = true)
    (ha : s.allowed i = false) : exec i s = .fault (.misaligned (s.regs[15] - 2)) := by
  obtain ⟨words, hi⟩ := Option.isSome_iff_exists.1 hi
  obtain ⟨body, e⟩ := exec_privileged hi s
  rw [e, privileged_eq, if_neg (by simp [ha])]
  exact faults (enter_odd h _ _ _)

theorem exec_extended_odd (h : s.entryReady = false) {i : Instr} (hi : (extendedWords i).isSome = true)
    (hx : s.extendedRuns = false) : exec i s = .fault (.misaligned (s.regs[15] - 2)) := by
  obtain ⟨words, hi⟩ := Option.isSome_iff_exists.1 hi
  obtain ⟨body, e⟩ := exec_extended hi s
  rw [e, extended_eq, if_neg (by simp [hx])]
  exact faults (enter_odd h _ _ _)

/-! ### Transfers of the EPU -/

theorem extended_faults {words : Word} {body : State → Comp State} (hx : s.extendedRuns = true)
    (h : body s = .error (.fault (.misaligned a))) : answer (extended words body s) = .fault (.misaligned a) := by
  rw [extended_eq, if_pos hx]
  exact faults h

theorem epuToMem_odd (h : s.reaches .w a = false) (sp : Space) (n : Nat) :
    epuToMem sp (n + 1) a s = .error (.fault (.misaligned a)) :=
  bind_stops (writeWordAs_odd ((State.reaches_congr (Stays.refl s).takeEpu.cfg ..).trans h) _ _ _)

theorem memToEpu_odd (h : s.reaches .w a = false) (sp : Space) (n : Nat) :
    memToEpu sp (n + 1) a s = .error (.fault (.misaligned a)) := bind_stops (readWordAs_odd h _ _)

/-! ### Block instructions -/

section
variable {dir : Direction} {d p r : Reg} {cc : Cond}

theorem compareIter_odd (h : s.reaches z (s.word p) = false) :
    compareIter z dir d p r cc s = .error (.fault (.misaligned (s.word p))) := bind_stops (load_odd h _)

theorem stringIter_odd (h : s.reaches z (s.word p) = false) :
    stringIter z dir d p r cc s = .error (.fault (.misaligned (s.word p))) := bind_stops (load_odd h _)

theorem copyIter_odd (h : s.reaches z (s.word p) = false) :
    copyIter z dir d p r s = .error (.fault (.misaligned (s.word p))) := bind_stops (load_odd h _)

theorem outputIter_odd {sp : IoSpace} (h : s.reaches z (s.word p) = false) :
    outputIter z sp dir d p r s = .error (.fault (.misaligned (s.word p))) := bind_stops (load_odd h _)

/-- A string compare reads its source first (R666, log entry 36). -/
theorem stringIter_odd_second (hp : s.reaches z (s.word p) = true) (h : s.reaches z (s.word d) = false) :
    stringIter z dir d p r cc s = .error (.fault (.misaligned (s.word d))) := by
  obtain ⟨trace, e⟩ := load_events (dsp p) hp
  exact (bind_goesOn e).trans (bind_stops (load_odd (s := s.recorded _ trace) h _))

/-- A block load reads before it writes (R667). -/
theorem copyIter_odd_second (hp : s.reaches z (s.word p) = true) (h : s.reaches z (s.word d) = false) :
    copyIter z dir d p r s = .error (.fault (.misaligned (s.word d))) := by
  obtain ⟨trace, e⟩ := load_events (dsp p) hp
  exact (bind_goesOn e).trans (bind_stops (store_odd (s := s.recorded _ trace) h _ _))

/-- The port read of a block input comes before its write (R757). -/
theorem inputIter_odd {sp : IoSpace} (h : s.reaches .w (s.word d) = false) :
    inputIter .w sp dir d p r s = .error (.fault (.misaligned (s.word d))) := by
  obtain ⟨ports, free, e⟩ : ∃ ports free, (takePort s).2 = { s with portIn := ports, freeCount := free } := by
    unfold takePort
    split <;> exact ⟨_, _, rfl⟩
  have hw : (ioRead .w sp (s.word p) s).2.word d = s.word d := by
    show (takePort s).2.word d = _
    rw [e]
    rfl
  have hr : (ioRead .w sp (s.word p) s).2.reaches .w (s.word d) = false :=
    (State.reaches_congr ((Stays.refl s).ioRead ..).cfg ..).trans h
  rw [← hw] at hr ⊢
  exact bind_stops (store_odd hr _ _)

end

/-! ### The obligation -/

/-- Settles O60: fetches and entry sequences, sources and destinations, transfers, stacks, block instructions. -/
theorem oddAddressesFault : Obligations.OddAddressesFault := by
  refine ⟨⟨fun s hf hodd hp => ?_, fun s h => ⟨step_request_odd h, fun hf hpc htrap => ?_,
      fun i hi ha => exec_privileged_odd h hi ha, fun i hi hx => exec_extended_odd h hi hx,
      fun b => faults (enter_odd h _ _ _)⟩⟩, ?_, ⟨fun d m n s h => ?_, fun d m s h => ?_, fun d disp s h => ?_⟩,
    ⟨fun sp s h => ?_, fun sp m s hs hm ha => ⟨popTo_mem_odd hs hm ha, popTo_mem_odd hs hm ha⟩, fun s h => ?_⟩,
    fun d p r cc s hs => ⟨fun hp => ?_, fun hd => ⟨fun hp => ?_, ?_⟩⟩⟩
  · rw [step_fetches hf]
    exact runInstruction_odd (s := s.pinned) (by simp [State.pcReady, State.pinned, hodd, hp])
  · rw [step_fetches hf]
    exact runInstruction_trap_odd (s := s.pinned) h hpc htrap
  · exact ⟨fun _ _ _ h => load_faults h, fun _ _ _ h => load_faults h,
      fun _ _ _ h => load_faults h, fun _ _ _ h => load_faults h,
      fun _ _ _ h => load_faults h, fun _ _ _ h => load_faults h,
      fun _ _ _ h => load_faults h, fun _ _ _ h => load_faults h,
      fun _ _ _ h => load_faults h, fun _ _ h => faults (store_odd h _ _),
      fun _ _ h => faults (modify_odd h _), fun _ _ h => faults (modify_odd h _),
      fun _ _ h => load_faults h, fun _ _ h => load_faults h,
      fun _ _ h => faults (modify_odd h _),
      fun n => ⟨fun _ _ h => faults (modify_odd h _), fun _ _ h => faults (modify_odd h _),
        fun _ _ h => load_faults h, fun _ _ h => faults (modify_odd h _),
        fun _ _ h => faults (modify_odd h _)⟩,
      fun v _ _ h => faults (store_odd h _ _),
      fun sp => ⟨fun _ _ _ h => load_faults h, fun _ _ h => load_faults h⟩⟩
  · have hl : s.reaches .l (memEA m s).2 = false := h
    exact ⟨fun hd => ⟨faults_checked_twice hd rfl (bind_stops (load_odd h _)),
        faults_checked_twice hd rfl (bind_stops (load_odd h _))⟩,
      fun hd => ⟨faults_checked_twice hd rfl (bind_stops (load_odd hl _)),
        faults_checked_twice hd rfl (bind_stops (load_odd hl _))⟩,
      fun v => load_faults h, load_faults h, load_faults h,
      faults_first (store_odd h _ _), privileged_faults rfl (bind_stops (load_odd h _)),
      fun hx b x => ⟨extended_faults hx (epuToMem_odd h _ _), extended_faults hx (memToEpu_odd h _ _)⟩⟩
  · have hl : s.reaches .l (ldEA m s).2 = false := h
    exact ⟨load_faults h, load_faults hl, faults (store_odd h _ _),
      fun hd => faults ((bind_goesOn (readReg_fits (show regFits .l _ = true from hd))).trans (store_odd hl _ _))⟩
  · have hl : s.reaches .l (relEA disp s) = false := h
    exact ⟨load_faults h, load_faults hl, faults (store_odd h _ _),
      fun hd => faults ((bind_goesOn (readReg_fits (show regFits .l _ = true from hd))).trans (store_odd hl _ _))⟩
  · have h₂ : s.reaches .w (s.word sp - 2) = false := (s.reaches_sub_two _).trans h
    have h₄ : s.reaches .l (s.word sp - 4) = false := (s.reaches_sub_four _).trans h
    have hl : s.reaches .l (s.word sp) = false := h
    refine ⟨fun src hs => ?_, fun src hs => ?_, fun d hd => faults_checked hd (bind_stops (load_odd h _)),
      fun d hd => faults_checked hd (bind_stops (load_odd hl _))⟩
    · obtain ⟨bus, trace, e⟩ := readSrc_spec .w src s hs
      exact faults ((bind_goesOn e).trans (pushValue_odd (s := { s with bus := bus, trace := trace }) h₂ _))
    · obtain ⟨bus, trace, e⟩ := readDst_spec .l src s hs
      exact faults ((bind_goesOn e).trans (pushValue_odd (s := { s with bus := bus, trace := trace }) h₄ _))
  · refine ⟨fun cc hc => faults ((if_pos hc).trans (bind_stops (pop_odd h))), fun e => faults (callTo_odd h _),
      fun m hm => ?_, privileged_faults rfl (leave_odd h)⟩
    obtain ⟨trace, e⟩ := discardTarget_events m s
    refine faults_checked hm ?_
    rw [e]
    exact callTo_odd (s := s.recorded _ trace) h _
  · exact ⟨faults_checked hs (copyIter_odd hp), faults_checked hs (copyIter_odd hp),
      faults_checked hs (bind_stops (compareIter_odd hp)), faults_checked hs (bind_stops (compareIter_odd hp)),
      faults_checked hs (bind_stops (compareIter_odd hp)), faults_checked hs (bind_stops (compareIter_odd hp)),
      faults_checked hs (bind_stops (stringIter_odd hp)), faults_checked hs (bind_stops (stringIter_odd hp)),
      faults_checked hs (bind_stops (stringIter_odd hp)), faults_checked hs (bind_stops (stringIter_odd hp)),
      fun hc => ⟨faults_checked_twice hc hs (bind_stops (copyIter_odd hp)),
        faults_checked_twice hc hs (bind_stops (copyIter_odd hp))⟩,
      ioOnce_faults hs (outputIter_odd hp) rfl, ioOnce_faults hs (outputIter_odd hp) rfl,
      ioOnce_faults hs (outputIter_odd hp) rfl, ioOnce_faults hs (outputIter_odd hp) rfl,
      fun hc => ⟨ioRepeat_faults hs (outputIter_odd hp) hc rfl, ioRepeat_faults hs (outputIter_odd hp) hc rfl,
        ioRepeat_faults hs (outputIter_odd hp) hc rfl, ioRepeat_faults hs (outputIter_odd hp) hc rfl⟩⟩
  · exact ⟨faults_checked hs (copyIter_odd_second hp hd), faults_checked hs (copyIter_odd_second hp hd),
      faults_checked hs (bind_stops (stringIter_odd_second hp hd)),
      faults_checked hs (bind_stops (stringIter_odd_second hp hd)),
      faults_checked hs (bind_stops (stringIter_odd_second hp hd)),
      faults_checked hs (bind_stops (stringIter_odd_second hp hd)),
      fun hc => ⟨faults_checked_twice hc hs (bind_stops (copyIter_odd_second hp hd)),
        faults_checked_twice hc hs (bind_stops (copyIter_odd_second hp hd))⟩⟩
  · exact ⟨ioOnce_faults hs (inputIter_odd hd) rfl, ioOnce_faults hs (inputIter_odd hd) rfl,
      ioOnce_faults hs (inputIter_odd hd) rfl, ioOnce_faults hs (inputIter_odd hd) rfl,
      fun hc => ⟨ioRepeat_faults hs (inputIter_odd hd) hc rfl, ioRepeat_faults hs (inputIter_odd hd) hc rfl,
        ioRepeat_faults hs (inputIter_odd hd) hc rfl, ioRepeat_faults hs (inputIter_odd hd) hc rfl⟩⟩

end

end Sys2Proof.Machine
end

section
/-! Decoding inverts encoding (R110 to R122). Three layers: what the fields of an assembled word are; what each operand
form reads from the words the encoder writes for that form; and, for each family of encodings, the round trip of an
instruction whose row of the opcode map is that form. A row of the map is named by `rfl`. -/

namespace Sys2Proof

/-! ### The fields of assembled words (R111, R114) -/

section
variable (m : BitVec 2) (op : BitVec 6) (a b x r : BitVec 4)

@[simp] theorem modeField_firstWord : modeField (firstWord m op a b) = m := by
  grind [modeField, firstWord]
@[simp] theorem opField_firstWord : opField (firstWord m op a b) = op := by
  grind [opField, firstWord]
@[simp] theorem aField_firstWord : aField (firstWord m op a b) = a := by
  grind [aField, firstWord]
@[simp] theorem bField_firstWord : bField (firstWord m op a b) = b := by
  grind [bField, firstWord]
@[simp] theorem xField_secondWord : xField (secondWord x r a b) = x := by
  grind [xField, secondWord]
@[simp] theorem rField_secondWord : rField (secondWord x r a b) = r := by
  grind [rField, secondWord]
@[simp] theorem aField_secondWord : aField (secondWord x r a b) = a := by
  grind [aField, secondWord]
@[simp] theorem bField_secondWord : bField (secondWord x r a b) = b := by
  grind [bField, secondWord]

end

@[simp] theorem hiByte_append (h l : Byte) : hiByte (h ++ l) = h := by grind [hiByte]
@[simp] theorem loByte_append (h l : Byte) : loByte (h ++ l) = l := by grind [loByte]
@[simp] theorem low3_append (h : BitVec 1) (n : BitVec 3) : low3 (h ++ n) = n := by grind [low3]

/-- The two nibbles of a byte, put together again. -/
theorem nibbles_append (v : Byte) : v.extractLsb' 4 4 ++ v.extractLsb' 0 4 = v := by grind

/-- The code of a condition names it (R130). -/
@[simp] theorem Cond.ofCode_code (cc : Cond) : Cond.ofCode cc.code = cc := by cases cc <;> rfl

theorem Reg.nonzero_iff {r : Reg} : Reg.nonzero r = true ↔ r ≠ 0 := bne_iff_ne

/-! ### The first word -/

/-- An instruction the tables give is the decoder's answer: only a rejection is looked up in R155. -/
theorem decodeWords_of_run {w : Word} {rest ws : List Word} {i : Instr} (h : (decode1 w).run rest = .ok (i, ws)) :
    decodeWords (w :: rest) = .ok (i, ws) := by
  rw [decodeWords, h]

theorem decode1_firstWord {m : BitVec 2} (hm : m ≠ 3) (op : BitVec 6) (a b : BitVec 4) :
    decode1 (firstWord m op a b) = opcodeMap m op a b := by
  rw [decode1, modeField_firstWord, opField_firstWord, aField_firstWord, bField_firstWord, if_neg hm]

theorem decodeWords_firstWord {m : BitVec 2} {op : BitVec 6} {a b : BitVec 4} {rest ws : List Word} {i : Instr}
    (hm : m ≠ 3) (h : (opcodeMap m op a b).run rest = .ok (i, ws)) :
    decodeWords (firstWord m op a b :: rest) = .ok (i, ws) :=
  decodeWords_of_run (decode1_firstWord hm op a b ▸ h)

theorem Mem.mode_eq (m : Mem) : m.mode = 0 ∨ m.mode = 1 := by
  cases m with
  | ind r => exact .inl rfl
  | da address => exact .inr rfl
  | x address r => exact .inr rfl

theorem Mem.mode_ne_two (m : Mem) : m.mode ≠ 2 := by
  obtain h | h := m.mode_eq <;> rw [h] <;> decide

theorem Mem.mode_ne_three (m : Mem) : m.mode ≠ 3 := by
  obtain h | h := m.mode_eq <;> rw [h] <;> decide

theorem Dst.mode_ne_three (d : Dst) : d.mode ≠ 3 := by
  cases d with
  | reg c => exact (by decide : (2 : BitVec 2) ≠ 3)
  | mem m => exact m.mode_ne_three

theorem Src.mode_ne_three {z : Size} (s : Src z) : s.mode ≠ 3 := by
  cases s with
  | reg c => exact (by decide : (2 : BitVec 2) ≠ 3)
  | imm v => exact (by decide : (0 : BitVec 2) ≠ 3)
  | mem m => exact m.mode_ne_three

/-! ### Operand forms -/

/-- Mode 00 with a field that is not 0000 is IR (R112). -/
theorem memForm_ind {r : Reg} (h : r ≠ 0) (k : Mem → Decoding) : memForm 0 r k = k (.ind r) := if_neg h

/-- Mode 01 with a field that is not 0000 is X (R112). -/
theorem memForm_x {r : Reg} (h : r ≠ 0) (k : Mem → Decoding) :
    memForm 1 r k = .more fun address => k (.x address r) := if_neg h

theorem dstForm_mem {q : BitVec 2} (h : q ≠ 2) (f : Reg) (k : Dst → Decoding) :
    dstForm q f k = memForm q f fun m => k (.mem m) := if_neg h

theorem srcForm_mem {z : Size} {q : BitVec 2} {f : Reg} (h : q ≠ 2) (h' : ¬(q = 0 ∧ f = 0))
    (k : Src z → Decoding) :
    srcForm z q f k = memForm q f fun m => k (.mem m) := (if_neg h).trans (if_neg h')

/-- A memory operand is not the immediate, which has the mode of IR and a zero field (R112). -/
theorem Mem.ne_immediate {m : Mem} (h : m.wf = true) : ¬(m.mode = 0 ∧ m.field = 0) := by
  cases m with
  | ind r => exact fun e => Reg.nonzero_iff.mp h e.2
  | da address => exact fun e => absurd e.1 (by decide : (1 : BitVec 2) ≠ 0)
  | x address r => exact fun e => absurd e.1 (by decide : (1 : BitVec 2) ≠ 0)

section
variable (ws : List Word)

/-- IR with a zero field is another form, and so is X (R117), so only a legal operand is read back. -/
theorem memForm_run {m : Mem} (h : m.wf = true) (k : Mem → Decoding) :
    (memForm m.mode m.field k).run (m.ext ++ ws) = (k m).run ws := by
  cases m with
  | ind r => exact congrArg (Decoding.run · ws) (memForm_ind (Reg.nonzero_iff.mp h) k)
  | da address => rfl
  | x address r => exact congrArg (Decoding.run · (address :: ws)) (memForm_x (Reg.nonzero_iff.mp h) k)

theorem dstForm_run {z : Size} {d : Dst} (h : d.wf z = true) (k : Dst → Decoding) :
    (dstForm d.mode d.field k).run (d.ext ++ ws) = (k d).run ws := by
  cases d with
  | reg c => rfl
  | mem m =>
    change (dstForm m.mode m.field k).run (m.ext ++ ws) = _
    rw [dstForm_mem m.mode_ne_two]
    exact memForm_run ws h _

theorem immByte_run (v : Byte) (k : Byte → Decoding) : (immByte k).run ((v ++ v) :: ws) = (k v).run ws := by
  simp [immByte, Decoding.run]

theorem immForm_run {z : Size} (v : BitVec z.bits) (k : BitVec z.bits → Decoding) :
    (immForm z k).run (immWords v ++ ws) = (k v).run ws := by
  cases z with
  | b => exact immByte_run ws v k
  | w => rfl
  | l =>
    have halves : v.extractLsb' 16 16 ++ v.extractLsb' 0 16 = v := by grind
    exact congrArg (fun u => (k u).run ws) halves

theorem srcForm_run {z : Size} {s : Src z} (h : s.wf = true) (k : Src z → Decoding) :
    (srcForm z s.mode s.field k).run (s.ext ++ ws) = (k s).run ws := by
  cases s with
  | reg c => rfl
  | imm v => exact immForm_run ws v _
  | mem m =>
    change (srcForm z m.mode m.field k).run (m.ext ++ ws) = _
    rw [srcForm_mem m.mode_ne_two (Mem.ne_immediate h)]
    exact memForm_run ws h _

/-! ### Forms with a second word (R650, R524) -/

theorem compareForm_run {a : Reg} (ha : a ≠ 0) (d r : Reg) (cc : Cond) (k : Reg → Reg → Cond → Instr) :
    (compareForm a k).run (secondWord 0 r d cc.code :: ws) = .ok (k d r cc, ws) := by
  rw [compareForm, if_neg ha, Decoding.run, Decoding.run]
  simp

theorem blockForm_run {a o : Reg} (ha : a ≠ 0) (ho : o ≠ 0) (r : Reg) (cc : Cond) (k : Reg → Reg → Cond → Instr) :
    (blockForm a k).run (secondWord 0 r o cc.code :: ws) = .ok (k o r cc, ws) := by
  rw [blockForm, if_neg ha, Decoding.run, aField_secondWord, if_neg ho, Decoding.run]
  simp

theorem loadBlockForm_run_single {a o : Reg} (ha : a ≠ 0) (ho : o ≠ 0) (r : Reg) (single : Reg → Reg → Instr)
    (rep : Reg → Reg → Cond → Instr) :
    (loadBlockForm a single rep).run (secondWord 0 r o 8 :: ws) = .ok (single o r, ws) :=
  blockForm_run ws ha ho r .t _

theorem loadBlockForm_run_repeat {a o : Reg} (ha : a ≠ 0) (ho : o ≠ 0) (r : Reg) {cc : Cond} (hcc : cc ≠ .t)
    (single : Reg → Reg → Instr) (rep : Reg → Reg → Cond → Instr) :
    (loadBlockForm a single rep).run (secondWord 0 r o cc.code :: ws) = .ok (rep o r cc, ws) := by
  rw [loadBlockForm, blockForm_run ws ha ho, if_neg hcc]

theorem translateWord_run {a s : Reg} (ha : a ≠ 0) (hs : s ≠ 0) (r : Reg) (c : BitVec 4) (k : Reg → Reg → Instr) :
    (translateWord a k).run (secondWord 0 r s c :: ws) = .ok (k s r, ws) := by
  rw [translateWord, if_neg ha, Decoding.run, aField_secondWord, if_neg hs, Decoding.run, rField_secondWord]

theorem dynamicForm_run (s : Reg) (k : Reg → Instr) :
    (dynamicForm k).run (secondWord 0 s 0 0 :: ws) = .ok (k s, ws) := by
  simp [dynamicForm, Decoding.run]

section
variable (left right : BitVec 15 → Instr) (q : BitVec 15)

theorem shiftForm_run_left : (shiftForm left right).run (leftCount q :: ws) = .ok (left q, ws) := by
  have sign : (leftCount q).msb = false := by grind [leftCount]
  have count : (leftCount q).extractLsb' 0 15 = q := by grind [leftCount]
  simp [shiftForm, Decoding.run, sign, count]

theorem shiftForm_run_right : (shiftForm left right).run (rightCount q :: ws) = .ok (right q, ws) := by
  have sign : (rightCount q).msb = true := by grind [rightCount]
  have count : (rightCount q).extractLsb' 0 15 = q := by grind [rightCount]
  simp [shiftForm, Decoding.run, sign, count]

end

section
variable (left right : BitVec 7 → Instr) (q : BitVec 7)

theorem shiftByteForm_run_left : (shiftByteForm left right).run (leftByteCount q :: ws) = .ok (left q, ws) := by
  have sign : (leftByteCount q)[7] = false := by grind [leftByteCount]
  have count : (leftByteCount q).extractLsb' 0 7 = q := by grind [leftByteCount]
  simp [shiftByteForm, Decoding.run, sign, count]

theorem shiftByteForm_run_right : (shiftByteForm left right).run (rightByteCount q :: ws) = .ok (right q, ws) := by
  have sign : (rightByteCount q)[7] = true := by grind [rightByteCount]
  have count : (rightByteCount q).extractLsb' 0 7 = q := by grind [rightByteCount]
  simp [shiftByteForm, Decoding.run, sign, count]

end

end

/-! ### Families of encodings -/

section
variable {op base : BitVec 6} {b c : BitVec 4} {ws rest : List Word}

/-- A row that needs no more than the first word, or what it reads next. -/
theorem decodeWords_row {m : BitVec 2} {a b : BitVec 4} {x : Decoding} {i : Instr} (row : opcodeMap m op a b = x)
    (h : x.run rest = .ok (i, ws)) (hm : m ≠ 3 := by decide) :
    decodeWords (firstWord m op a b :: rest) = .ok (i, ws) :=
  decodeWords_firstWord hm (row ▸ h)

/-- One destination in bits 7:4. The row may have another form for mode 00 with a zero field. -/
theorem decodeWords_dstWords {z : Size} {d : Dst} {k : Dst → Instr} (h : d.wf z = true)
    (row : ∀ q f, ¬(q = 0 ∧ f = 0) → opcodeMap q op f b = dstForm q f fun d => .instr (k d)) :
    decodeWords (dstWords op d b ++ ws) = .ok (k d, ws) := by
  have legal : ¬(d.mode = 0 ∧ d.field = 0) := by
    cases d with
    | reg c => exact fun e => absurd e.1 (by decide : (2 : BitVec 2) ≠ 0)
    | mem m => exact Mem.ne_immediate h
  refine decodeWords_firstWord d.mode_ne_three ?_
  rw [row _ _ legal]
  exact dstForm_run ws h _

/-- One source in bits 7:4. -/
theorem decodeWords_srcWords {z : Size} {s : Src z} {k : Src z → Instr} (h : s.wf = true)
    (row : ∀ q f, opcodeMap q op f b = srcForm z q f fun s => .instr (k s)) :
    decodeWords (srcWords op s b ++ ws) = .ok (k s, ws) :=
  decodeWords_firstWord s.mode_ne_three (row _ _ ▸ srcForm_run ws h _)

/-- A memory operand in bits 7:4, and what the row reads after it. -/
theorem decodeWords_memWords {m : Mem} {k : Mem → Decoding} {i : Instr} (h : m.wf = true)
    (row : ∀ q f, q ≠ 2 → opcodeMap q op f b = memForm q f k) (hk : (k m).run rest = .ok (i, ws)) :
    decodeWords (memWords op m b ++ rest) = .ok (i, ws) := by
  refine decodeWords_firstWord m.mode_ne_three ?_
  rw [row _ _ m.mode_ne_two]
  exact (memForm_run rest h k).trans hk

/-- The same with one more word, which stands before the words of the next instruction. -/
theorem decodeWords_memWords_then {m : Mem} {k : Mem → Decoding} {i : Instr} {w : Word} (h : m.wf = true)
    (row : ∀ q f, q ≠ 2 → opcodeMap q op f b = memForm q f k) (hk : (k m).run (w :: ws) = .ok (i, ws)) :
    decodeWords (memWords op m b ++ [w] ++ ws) = .ok (i, ws) := by
  rw [List.append_assoc]
  exact decodeWords_memWords h row hk

/-- A memory operand in bits 7:4 whose address follows the second word (R114). -/
theorem decodeWords_wordThenMem {m : Mem} {k : Word → Mem → Instr} {w : Word} {i : Instr} (h : m.wf = true)
    (row : ∀ q f, q ≠ 2 → ¬(q = 0 ∧ f = 0) →
      opcodeMap q op f b = .more fun w => memForm q f fun d => .instr (k w d))
    (hk : k w m = i) :
    decodeWords (firstWord m.mode op m.field b :: w :: m.ext ++ ws) = .ok (i, ws) := by
  refine decodeWords_firstWord m.mode_ne_three ?_
  rw [row _ _ m.mode_ne_two (Mem.ne_immediate h), ← hk]
  exact memForm_run ws h _

/-- PUSH and POP: the pointer in bits 7:4, the operand in bits 3:0. -/
theorem decodeWords_stack {z : Size} {d : Dst} {p : Reg} {k : Dst → Instr} (h : d.wf z = true)
    (hp : Reg.nonzero p = true) (row : ∀ q f, opcodeMap q op p f = stackForm q p f k) :
    decodeWords (firstWord d.mode op p d.field :: d.ext ++ ws) = .ok (k d, ws) := by
  refine decodeWords_firstWord d.mode_ne_three ?_
  rw [row, stackForm, if_neg (Reg.nonzero_iff.mp hp)]
  exact dstForm_run ws h _

/-! Base Address and Base Index of the loads and stores (R203, R204). -/

theorem baseForm_ba {r : Reg} (h : r ≠ 0) (rel ba : Word → Instr) (bx : Reg → Instr) :
    baseForm 0 r rel ba bx = .more fun d => .instr (ba d) := if_neg h

theorem baseForm_bx {r : Reg} (h : r ≠ 0) (rel ba : Word → Instr) (bx : Reg → Instr) :
    baseForm 1 r rel ba bx = .more fun w => .instr (bx (rField w)) := if_neg h

/-- The memory forms of a load or store: IR, DA and X in one row of the map, BA and BX in another. -/
theorem decodeWords_ldMem {d : LdMem} {k : LdMem → Instr} {rel : Word → Instr} (h : d.wf = true)
    (row : ∀ q f, q ≠ 2 → ¬(q = 0 ∧ f = 0) → opcodeMap q op f c = memForm q f fun m => .instr (k (.std m)))
    (baseRow : ∀ q f, q ≠ 2 →
      opcodeMap q base f c = baseForm q f rel (fun disp => k (.ba f disp)) fun i => k (.bx f i)) :
    decodeWords (d.words op base c ++ ws) = .ok (k d, ws) := by
  cases d with
  | std m =>
    refine decodeWords_firstWord m.mode_ne_three ?_
    rw [row _ _ m.mode_ne_two (Mem.ne_immediate h)]
    exact memForm_run ws h _
  | ba r disp =>
    refine decodeWords_firstWord (by decide) ?_
    rw [baseRow _ _ (by decide), baseForm_ba (Reg.nonzero_iff.mp h)]
    rfl
  | bx r i =>
    refine decodeWords_firstWord (by decide) ?_
    rw [baseRow _ _ (by decide), baseForm_bx (Reg.nonzero_iff.mp h)]
    exact congrArg (fun i => Except.ok (k (.bx r i), ws)) (rField_secondWord 0 0 0 i)

/-- The loads: a register, or a memory form (R203). A byte register has any code, so its size of well-formedness is not
that of its immediate. -/
theorem decodeWords_ldSrc {y z : Size} {s : LdSrc} {k : LdSrc → Instr} {imm : BitVec z.bits → Instr}
    {rel : Word → Instr} (h : s.wf y = true) (row : ∀ q f, opcodeMap q op f c = loadForm z q f k imm)
    (baseRow : ∀ q f, q ≠ 2 →
      opcodeMap q base f c = baseForm q f rel (fun disp => k (.mem (.ba f disp))) fun i => k (.mem (.bx f i))) :
    decodeWords (s.words op base c ++ ws) = .ok (k s, ws) := by
  cases s with
  | reg r => exact decodeWords_firstWord (by decide) (row _ _ ▸ rfl)
  | mem m =>
    exact decodeWords_ldMem (k := fun m => k (.mem m)) h
      (fun q f hq hf => (row q f).trans ((if_neg hq).trans (if_neg hf))) baseRow

/-- The immediate of a load (R205). -/
theorem decodeWords_loadImm {z : Size} {v : BitVec z.bits} {load : LdSrc → Instr} {k : BitVec z.bits → Instr}
    (row : ∀ q f, opcodeMap q op f c = loadForm z q f load k) :
    decodeWords (firstWord 0 op 0 c :: immWords v ++ ws) = .ok (k v, ws) := by
  refine decodeWords_firstWord (by decide) ?_
  rw [row]
  exact immForm_run ws v _

/-- A condition in bits 3:0, in one word. -/
theorem decodeWords_cond {m : BitVec 2} {a : BitVec 4} {k : Cond → Instr} (cc : Cond)
    (row : ∀ c, opcodeMap m op a c = .instr (k (.ofCode c))) (hm : m ≠ 3 := by decide) :
    decodeWords (firstWord m op a cc.code :: ws) = .ok (k cc, ws) := by
  refine decodeWords_firstWord hm ?_
  rw [row, Cond.ofCode_code]
  rfl

/-! The dynamic forms and the block instructions (R650): the second word holds the other registers. -/

section
variable {q : BitVec 2} {a o r : Reg} {cc : Cond}

theorem decodeWords_dynamic {k : Reg → Instr} (row : opcodeMap q op a b = dynamicForm k) (hq : q ≠ 3 := by decide) :
    decodeWords ([firstWord q op a b, secondWord 0 r 0 0] ++ ws) = .ok (k r, ws) :=
  decodeWords_firstWord hq (row ▸ dynamicForm_run ws r k)

theorem decodeWords_compare {k : Reg → Reg → Cond → Instr} (ha : Reg.nonzero a = true)
    (row : opcodeMap q op a b = compareForm a k) (hq : q ≠ 3 := by decide) :
    decodeWords (blockWords q op a b r o cc.code ++ ws) = .ok (k o r cc, ws) :=
  decodeWords_firstWord hq (row ▸ compareForm_run ws (Reg.nonzero_iff.mp ha) o r cc k)

theorem decodeWords_block {k : Reg → Reg → Cond → Instr}
    (ha : Reg.nonzero a = true) (ho : Reg.nonzero o = true) (row : opcodeMap q op a b = blockForm a k)
    (hq : q ≠ 3 := by decide) :
    decodeWords (blockWords q op a b r o cc.code ++ ws) = .ok (k o r cc, ws) :=
  decodeWords_firstWord hq
    (row ▸ blockForm_run ws (Reg.nonzero_iff.mp ha) (Reg.nonzero_iff.mp ho) r cc k)

theorem decodeWords_single {single : Reg → Reg → Instr} {rep : Reg → Reg → Cond → Instr}
    (ha : Reg.nonzero a = true) (ho : Reg.nonzero o = true) (row : opcodeMap q op a b = loadBlockForm a single rep)
    (hq : q ≠ 3 := by decide) :
    decodeWords (blockWords q op a b r o 8 ++ ws) = .ok (single o r, ws) :=
  decodeWords_firstWord hq
    (row ▸ loadBlockForm_run_single ws (Reg.nonzero_iff.mp ha) (Reg.nonzero_iff.mp ho) r single rep)

theorem decodeWords_repeat {single : Reg → Reg → Instr} {rep : Reg → Reg → Cond → Instr}
    (ha : Reg.nonzero a = true) (ho : Reg.nonzero o = true) (hcc : cc ≠ .t)
    (row : opcodeMap q op a b = loadBlockForm a single rep) (hq : q ≠ 3 := by decide) :
    decodeWords (blockWords q op a b r o cc.code ++ ws) = .ok (rep o r cc, ws) :=
  decodeWords_firstWord hq
    (row ▸ loadBlockForm_run_repeat ws (Reg.nonzero_iff.mp ha) (Reg.nonzero_iff.mp ho) r hcc single rep)

theorem decodeWords_translate {k : Reg → Reg → Instr}
    (ha : Reg.nonzero a = true) (ho : Reg.nonzero o = true) (row : opcodeMap q op a b = translateWord a k)
    (hq : q ≠ 3 := by decide) :
    decodeWords (blockWords q op a b r o c ++ ws) = .ok (k o r, ws) :=
  decodeWords_firstWord hq
    (row ▸ translateWord_run ws (Reg.nonzero_iff.mp ha) (Reg.nonzero_iff.mp ho) r c k)

end

end

theorem Cond.ne_t_of_blockLoadOk {cc : Cond} (h : cc.blockLoadOk = true) : cc ≠ .t := by
  rintro rfl
  exact absurd h (by decide)

theorem Cond.ne_t_of_blockIoOk {cc : Cond} (h : cc.blockIoOk = true) : cc ≠ .t := by
  rintro rfl
  exact absurd h (by decide)

/-! ### The compact formats (R113) and SC, which have fields of their own -/

/-- A compact word: mode 11, two bits of format, a nibble and a byte. -/
theorem compact_eq_firstWord (f : BitVec 2) (c : BitVec 4) (v : Byte) :
    (3#2 ++ f : BitVec 4) ++ c ++ v = firstWord 3 (f ++ c) (v.extractLsb' 4 4) (v.extractLsb' 0 4) := by
  grind [firstWord]

theorem decodeWords_compact {f : BitVec 2} {c : BitVec 4} {v : Byte} {w : Word} {ws : List Word} {i : Instr}
    (hw : w = (3#2 ++ f : BitVec 4) ++ c ++ v)
    (h : compactForm (f ++ c) (v.extractLsb' 4 4) (v.extractLsb' 0 4) = .instr i) :
    decodeWords (w :: ws) = .ok (i, ws) := by
  refine decodeWords_of_run ?_
  rw [hw, compact_eq_firstWord, decode1, modeField_firstWord, opField_firstWord, aField_firstWord, bField_firstWord,
    if_pos rfl, h]
  rfl

section
variable (f : BitVec 2) (c a b : BitVec 4)

theorem format_append : (f ++ c : BitVec 6).extractLsb' 4 2 = f := by grind
theorem nibble_append : (f ++ c : BitVec 6).extractLsb' 0 4 = c := by grind

theorem compactForm_ldb : compactForm (0#2 ++ c) a b = .instr (.ldbImmCompact c (a ++ b)) := by
  simp only [compactForm, format_append, nibble_append]
  rfl

theorem compactForm_calr : compactForm (1#2 ++ c) a b = .instr (.calr (c ++ a ++ b)) := by
  simp only [compactForm, format_append, nibble_append]
  rfl

theorem compactForm_jr (cc : Cond) : compactForm (2#2 ++ cc.code) a b = .instr (.jr cc (a ++ b)) := by
  simp only [compactForm, format_append, nibble_append, Cond.ofCode_code]
  rfl

theorem compactForm_loop : compactForm (3#2 ++ c) a b =
    if a.msb then .instr (.djnz c ((a ++ b).extractLsb' 0 7)) else .instr (.dbjnz c ((a ++ b).extractLsb' 0 7)) := by
  simp only [compactForm, format_append, nibble_append]
  rfl

end

section
variable {ws : List Word}

theorem decodeWords_ldbImmCompact (d : Reg) (v : Byte) :
    decodeWords (encode (.ldbImmCompact d v) ++ ws) = .ok (.ldbImmCompact d v, ws) := by
  have word : 0b1100#4 ++ d ++ v = (3#2 ++ 0#2 : BitVec 4) ++ d ++ v := rfl
  exact decodeWords_compact word (by rw [compactForm_ldb, nibbles_append])

theorem decodeWords_calr (v : BitVec 12) : decodeWords (encode (.calr v) ++ ws) = .ok (.calr v, ws) := by
  have word : 0b1101#4 ++ v = (3#2 ++ 1#2 : BitVec 4) ++ v.extractLsb' 8 4 ++ v.extractLsb' 0 8 := by grind
  have disp : v.extractLsb' 8 4 ++ (v.extractLsb' 0 8).extractLsb' 4 4 ++ (v.extractLsb' 0 8).extractLsb' 0 4 = v := by
    grind
  exact decodeWords_compact word (by rw [compactForm_calr, disp])

theorem decodeWords_jr (cc : Cond) (v : Byte) : decodeWords (encode (.jr cc v) ++ ws) = .ok (.jr cc v, ws) := by
  have word : 0b1110#4 ++ cc.code ++ v = (3#2 ++ 2#2 : BitVec 4) ++ cc.code ++ v := rfl
  exact decodeWords_compact word (by rw [compactForm_jr, nibbles_append])

/-! DJNZ and DBJNZ share a format, which bit 7 splits (R113). -/

theorem compactForm_djnz (r : Reg) (v : BitVec 7) :
    compactForm (3#2 ++ r) ((1#1 ++ v : Byte).extractLsb' 4 4) ((1#1 ++ v : Byte).extractLsb' 0 4) =
      .instr (.djnz r v) := by
  have word : ((1#1 ++ v : Byte).extractLsb' 4 4).msb = true := by grind
  have disp : (1#1 ++ v : Byte).extractLsb' 0 7 = v := by grind
  rw [compactForm_loop, nibbles_append, if_pos word, disp]

theorem compactForm_dbjnz (r : Reg) (v : BitVec 7) :
    compactForm (3#2 ++ r) ((0#1 ++ v : Byte).extractLsb' 4 4) ((0#1 ++ v : Byte).extractLsb' 0 4) =
      .instr (.dbjnz r v) := by
  have byte : ((0#1 ++ v : Byte).extractLsb' 4 4).msb ≠ true := by grind
  have disp : (0#1 ++ v : Byte).extractLsb' 0 7 = v := by grind
  rw [compactForm_loop, nibbles_append, if_neg byte, disp]

theorem decodeWords_djnz (r : Reg) (v : BitVec 7) : decodeWords (encode (.djnz r v) ++ ws) = .ok (.djnz r v, ws) := by
  have word : 0b1111#4 ++ r ++ 1#1 ++ v = (3#2 ++ 3#2 : BitVec 4) ++ r ++ (1#1 ++ v) := by grind
  exact decodeWords_compact word (compactForm_djnz r v)

theorem decodeWords_dbjnz (r : Reg) (v : BitVec 7) :
    decodeWords (encode (.dbjnz r v) ++ ws) = .ok (.dbjnz r v, ws) := by
  have word : 0b1111#4 ++ r ++ 0#1 ++ v = (3#2 ++ 3#2 : BitVec 4) ++ r ++ (0#1 ++ v) := by grind
  exact decodeWords_compact word (compactForm_dbjnz r v)

theorem decodeWords_sc (v : Byte) : decodeWords (encode (.sc v) ++ ws) = .ok (.sc v, ws) := by
  have word : 0x7F#8 ++ v = firstWord 1 0x3F (v.extractLsb' 4 4) (v.extractLsb' 0 4) := by grind [firstWord]
  change decodeWords ((0x7F#8 ++ v) :: ws) = _
  rw [word]
  exact decodeWords_row rfl (congrArg (fun v => Except.ok (Instr.sc v, ws)) (nibbles_append v))

end

/-! ### Fields within a nibble: the control of interrupts (R853, R854) and the EPU forms (R953 to R957) -/

section
variable (h i : BitVec 2) (w1 : BitVec 3)

theorem upperPair_append : (h ++ i : BitVec 4).extractLsb' 2 2 = h := by grind
theorem lowerPair_append : (h ++ i : BitVec 4).extractLsb' 0 2 = i := by grind
theorem clearMsb_append : (0#1 ++ w1 : BitVec 4).msb ≠ true := by grind
theorem lowerThree_append : (0#1 ++ w1 : BitVec 4).extractLsb' 0 3 = w1 := by grind

theorem opcodeMap_di : opcodeMap 1 0x3C 0 (0#2 ++ i) = .instr (.di i) := by
  simp [opcodeMap, upperPair_append, lowerPair_append]

theorem opcodeMap_ei : opcodeMap 1 0x3C 0 (1#2 ++ i) = .instr (.ei i) := by
  simp [opcodeMap, upperPair_append, lowerPair_append]

theorem epuWord_ldFromEpu : epuWord 2 (0#1 ++ w1) (0#2 ++ i) =
    .more fun w => .instr (.ldFromEpu (rField w) w1 i (xField w) (aField w) (bField w)) := by
  rw [epuWord, if_pos rfl, if_neg (clearMsb_append w1), upperPair_append, lowerPair_append, lowerThree_append]
  rfl

theorem epuWord_ldToEpu : epuWord 2 (0#1 ++ w1) (2#2 ++ i) =
    .more fun w => .instr (.ldToEpu (rField w) w1 i (xField w) (aField w) (bField w)) := by
  rw [epuWord, if_pos rfl, if_neg (clearMsb_append w1), upperPair_append, lowerPair_append, lowerThree_append]
  rfl

section
variable {q : BitVec 2} {f : Reg} (hq : q ≠ 2) (hf : ¬(q = 0 ∧ f = 0))
include hq hf

theorem epuWord_ldFromEpuMem : epuWord q f (3#2 ++ i) =
    .more fun w => memForm q f fun d => .instr (.ldFromEpuMem d i (w.extractLsb' 4 12) (bField w)) := by
  rw [epuWord, if_neg hq, if_neg hf, upperPair_append, lowerPair_append]
  rfl

theorem epuWord_ldToEpuMem : epuWord q f (1#2 ++ i) =
    .more fun w => memForm q f fun d => .instr (.ldToEpuMem d i (w.extractLsb' 4 12) (bField w)) := by
  rw [epuWord, if_neg hq, if_neg hf, upperPair_append, lowerPair_append]
  rfl

end

section
variable (a : Reg)

theorem epuByte_epui : epuByte 2 a (1#2 ++ i) =
    .more fun w => .instr (.epui a i (w.extractLsb' 4 12) (bField w)) := by
  rw [epuByte, if_pos rfl, upperPair_append, lowerPair_append]
  rfl

theorem epuByte_ldbFcwEpu : epuByte 2 a (0#2 ++ i) = .more fun w =>
    if rField w = 0 ∧ bField w = 0 then .instr (.ldbFcwEpu a i (xField w) (aField w)) else .bad .secondWord := by
  rw [epuByte, if_pos rfl, upperPair_append, lowerPair_append]
  rfl

theorem epuByte_ldbEpuFcw : epuByte 2 a (2#2 ++ i) = .more fun w =>
    if rField w = 0 ∧ bField w = 0 then .instr (.ldbEpuFcw a i (xField w) (aField w)) else .bad .secondWord := by
  rw [epuByte, if_pos rfl, upperPair_append, lowerPair_append]
  rfl

end

end

section
variable (x : BitVec 12) (n : BitVec 4)

theorem xFields_append : (x ++ n : Word).extractLsb' 4 12 = x := by grind
theorem bField_append : bField (x ++ n) = n := by grind [bField]

end

/-! ### Rows that lead to a group of the map (R150) -/

section
variable (a b : BitVec 4)

theorem opcodeMap_blockWord : opcodeMap 2 0x3B a b = blockWord a b := rfl
theorem opcodeMap_blockByte : opcodeMap 2 0x3A a b = blockByte a b := rfl
theorem opcodeMap_ioWord : opcodeMap 0 0x3B a b = ioWord a b := rfl
theorem opcodeMap_ioByte : opcodeMap 0 0x3A a b = ioByte a b := rfl

end

/-! ### Instructions with an encoding of their own for some operands -/

/-- LDA: DA and X in one row, BA and BX in another (R206). -/
theorem decodeWords_lda (d : Reg) {s : AddrForm} {ws : List Word} (h : s.wf = true) :
    decodeWords (encode (.lda d s) ++ ws) = .ok (.lda d s, ws) := by
  cases s with
  | da address => exact decodeWords_row rfl rfl
  | x address r => exact decodeWords_row (if_neg (Reg.nonzero_iff.mp h)) rfl
  | ba r disp =>
    exact decodeWords_row (x := .more fun disp => .instr (.lda d (.ba r disp))) (if_neg (Reg.nonzero_iff.mp h)) rfl
  | bx r i =>
    refine decodeWords_row (x := .more fun w => .instr (.lda d (.bx r (rField w)))) (if_neg (Reg.nonzero_iff.mp h)) ?_
    exact congrArg (fun i => Except.ok (Instr.lda d (.bx r i), ws)) (rField_secondWord 0 0 0 i)

/-- PUSH of a word register or of memory. -/
def pushOf (p : Reg) : Dst → Instr
  | .reg c => .pushw p (.reg c)
  | .mem m => .pushw p (.mem m)

theorem opcodeMap_pushw (q : BitVec 2) (p f : BitVec 4) : opcodeMap q 0x13 p f = stackForm q p f (pushOf p) := rfl

/-- PUSH of a word: the immediate has a row of its own (R214). -/
theorem decodeWords_pushw {p : Reg} {s : Src .w} {ws : List Word} (h : (s.wf && Reg.nonzero p) = true) :
    decodeWords (encode (.pushw p s) ++ ws) = .ok (.pushw p s, ws) := by
  obtain ⟨hs, hp⟩ := Bool.and_eq_true_iff.mp h
  cases s with
  | reg c => exact decodeWords_stack (d := .reg c) (z := .w) hs hp fun q f => opcodeMap_pushw q p f
  | imm v => exact decodeWords_row (if_pos ⟨rfl, Reg.nonzero_iff.mp hp⟩) rfl
  | mem m => exact decodeWords_stack (d := .mem m) (z := .w) hs hp fun q f => opcodeMap_pushw q p f

/-! ### The instructions -/

/-- Settles O1: the round trip (R110 to R122), by families of encodings. -/
theorem decodeInvertsEncode : Obligations.DecodeInvertsEncode := by
  unfold Obligations.DecodeInvertsEncode
  intro i ws h
  cases i
  -- one operand in bits 7:4
  case clr d | clrb d | com d | comb d | neg d | negb d | test d | testb d | testl d | tset d | tsetb d | inc d n
    | incb d n | dec d n | decb d n | ex d s | exb d s =>
    apply decodeWords_dstWords h
    exact fun _ _ _ => rfl
  case bit d n | resBit d n | setBit d n =>
    apply decodeWords_dstWords h
    exact fun _ _ hf => if_neg hf
  case bitb d n | resBitB d n | setBitB d n =>
    apply decodeWords_dstWords h
    exact fun _ _ hf => (if_neg hf).trans (by rw [low3_append])
  case add d s | addb d s | cp d s | cpb d s | sub d s | subb d s | and d s | andb d s | or d s | orb d s | xor d s
    | xorb d s => exact decodeWords_srcWords h fun _ _ => rfl
  case addl d s | cpl d s | subl d s =>
    simp only [WellFormed, Bool.and_eq_true] at h
    obtain ⟨-, source⟩ := h
    exact decodeWords_srcWords source fun _ _ => rfl
  case div d s | divl d s | mult d s | multl d s =>
    simp only [WellFormed, Bool.and_eq_true] at h
    obtain ⟨⟨-, source⟩, -⟩ := h
    exact decodeWords_srcWords source fun _ _ => rfl
  case call d =>
    simp only [WellFormed, Bool.and_eq_true] at h
    obtain ⟨target, -⟩ := h
    apply decodeWords_memWords target
    · exact fun _ _ hq => if_neg hq
    · rfl
  case jp cc d =>
    apply decodeWords_memWords h
    · exact fun _ _ hq => if_neg hq
    · rw [Cond.ofCode_code]
      rfl
  case ldps s =>
    apply decodeWords_memWords h
    · exact fun _ _ hq => (if_neg hq).trans (if_pos rfl)
    · rfl
  -- loads and stores
  case ld d s | ldb d s =>
    apply decodeWords_ldSrc h
    · exact fun _ _ => rfl
    · exact fun _ _ hq => if_neg hq
  case ldl d s =>
    simp only [WellFormed, Bool.and_eq_true] at h
    obtain ⟨-, source⟩ := h
    apply decodeWords_ldSrc source
    · exact fun _ _ => rfl
    · exact fun _ _ hq => if_neg hq
  case ldStore d s | ldbStore d s =>
    apply decodeWords_ldMem h
    · exact fun _ _ hq _ => if_neg hq
    · exact fun _ _ hq => if_neg hq
  case ldlStore d s =>
    simp only [WellFormed, Bool.and_eq_true] at h
    obtain ⟨-, dest⟩ := h
    apply decodeWords_ldMem dest
    · exact fun _ _ hq _ => if_neg hq
    · exact fun _ _ hq => if_neg hq
  case ldImm d v =>
    cases d with
    | reg c => exact decodeWords_row rfl rfl
    | mem m =>
      apply decodeWords_memWords_then h
      · exact fun _ _ hq => if_neg hq
      · rfl
  case ldbImm d v =>
    cases d with
    | reg c => exact decodeWords_row rfl (immByte_run ws v fun v => .instr (.ldbImm (.reg c) v))
    | mem m =>
      apply decodeWords_memWords_then h
      · exact fun _ _ hq => if_neg hq
      · exact immByte_run ws v _
  case ldlImm d v => exact decodeWords_loadImm fun _ _ => rfl
  case cpImm d v =>
    apply decodeWords_memWords_then h
    · exact fun _ _ hq => if_neg hq
    · rfl
  case cpbImm d v =>
    apply decodeWords_memWords_then h
    · exact fun _ _ hq => if_neg hq
    · exact immByte_run ws v _
  case lda d s => exact decodeWords_lda d h
  case ldmLoad d s n | ldmStore s d n =>
    apply decodeWords_wordThenMem h
    · exact fun _ _ hq hf => (if_neg hq).trans (if_neg hf)
    · simp
  case pop d p | popl d p =>
    simp only [WellFormed, Bool.and_eq_true] at h
    obtain ⟨⟨dest, pointer⟩, -⟩ := h
    apply decodeWords_stack dest pointer
    exact fun _ _ => rfl
  case pushl p s =>
    simp only [WellFormed, Bool.and_eq_true] at h
    obtain ⟨source, pointer⟩ := h
    apply decodeWords_stack source pointer
    exact fun _ _ => rfl
  case pushw p s => exact decodeWords_pushw h
  -- two words, the second of which is read whole
  case ldar d v | ldr d v | ldrb d v | ldrl d v | ldrStore v s | ldrbStore v s | ldrlStore v s | sin d v | sinb d v
    | sout v s | soutb v s => exact decodeWords_row rfl rfl
  case inp d s | inpb d s | outp s d | outpb s d =>
    cases s with
    | ir r => exact decodeWords_row (if_neg (Reg.nonzero_iff.mp h)) rfl
    | da port => exact decodeWords_row rfl rfl
  -- a register or count in the second word
  case bitDyn d s | bitbDyn d s | resBitDyn d s | resBitBDyn d s | setBitDyn d s | setBitBDyn d s | sda d s | sdab d s
    | sdal d s | sdl d s | sdlb d s | sdll d s =>
    apply decodeWords_dynamic (hq := by decide)
    exact rfl
  case sla d q | slal d q | sll d q | slll d q => exact decodeWords_row rfl (shiftForm_run_left ws _ _ q)
  case sra d q | sral d q | srl d q | srll d q => exact decodeWords_row rfl (shiftForm_run_right ws _ _ q)
  case slab d q | sllb d q => exact decodeWords_row rfl (shiftByteForm_run_left ws _ _ q)
  case srab d q | srlb d q => exact decodeWords_row rfl (shiftByteForm_run_right ws _ _ q)
  -- one word
  case ldk d k | adc d s | adcb d s | sbc d s | sbcb d s | dab d | extsb d | exts d | extsl d | rldb d s | rrdb d s
    | comflg f | resflg f | setflg f | nop | halt | iret | ldctlbFrom d | ldctlbTo s | mset | mres | mbit | mreq d =>
    exact decodeWords_row rfl rfl
  case di v => exact decodeWords_row (opcodeMap_di v) rfl
  case ei v => exact decodeWords_row (opcodeMap_ei v) rfl
  case rl d two | rlb d two | rlc d two | rlcb d two | rr d two | rrb d two | rrc d two | rrcb d two =>
    cases two <;> exact decodeWords_row rfl rfl
  case ldctlTo c s | ldctlFrom s c => cases c <;> exact decodeWords_row rfl rfl
  case tcc cc d | tccb cc d | ret cc =>
    apply decodeWords_cond cc (hm := by decide)
    exact fun _ => rfl
  case ldbImmCompact d v => exact decodeWords_ldbImmCompact d v
  case calr v => exact decodeWords_calr v
  case jr cc v => exact decodeWords_jr cc v
  case djnz r v => exact decodeWords_djnz r v
  case dbjnz r v => exact decodeWords_dbjnz r v
  case sc v => exact decodeWords_sc v
  -- block instructions
  case cpd d s r cc | cpdr d s r cc | cpi d s r cc | cpir d s r cc =>
    simp only [WellFormed, Bool.and_eq_true] at h
    obtain ⟨source, -⟩ := h
    apply decodeWords_compare source
    exact rfl
  case cpdb d s r cc | cpdrb d s r cc | cpib d s r cc | cpirb d s r cc =>
    simp only [WellFormed, Bool.and_eq_true] at h
    obtain ⟨⟨⟨source, -⟩, -⟩, -⟩ := h
    apply decodeWords_compare source
    exact rfl
  case cpsd d s r cc | cpsdb d s r cc | cpsdr d s r cc | cpsdrb d s r cc | cpsi d s r cc | cpsib d s r cc
    | cpsir d s r cc | cpsirb d s r cc =>
    simp only [WellFormed, Bool.and_eq_true] at h
    obtain ⟨⟨source, dest⟩, -⟩ := h
    apply decodeWords_block source dest
    exact rfl
  case ldd d s r | ldi d s r =>
    simp only [WellFormed, Bool.and_eq_true] at h
    obtain ⟨⟨source, dest⟩, -⟩ := h
    apply decodeWords_single source dest
    exact (opcodeMap_blockWord s _).trans rfl
  case lddb d s r | ldib d s r =>
    simp only [WellFormed, Bool.and_eq_true] at h
    obtain ⟨⟨source, dest⟩, -⟩ := h
    apply decodeWords_single source dest
    exact (opcodeMap_blockByte s _).trans rfl
  case ind d s r | sind d s r | ini d s r | sini d s r | outd d s r | soutd d s r | outi d s r | souti d s r =>
    simp only [WellFormed, Bool.and_eq_true] at h
    obtain ⟨⟨source, dest⟩, -⟩ := h
    apply decodeWords_single source dest
    exact (opcodeMap_ioWord s _).trans rfl
  case indb d s r | sindb d s r | inib d s r | sinib d s r | outdb d s r | soutdb d s r | outib d s r | soutib d s r =>
    simp only [WellFormed, Bool.and_eq_true] at h
    obtain ⟨⟨source, dest⟩, -⟩ := h
    apply decodeWords_single source dest
    exact (opcodeMap_ioByte s _).trans rfl
  case lddr d s r cc | ldir d s r cc =>
    simp only [WellFormed, Bool.and_eq_true] at h
    obtain ⟨⟨⟨source, dest⟩, -⟩, condition⟩ := h
    apply decodeWords_repeat source dest (Cond.ne_t_of_blockLoadOk condition)
    exact (opcodeMap_blockWord s _).trans rfl
  case lddrb d s r cc | ldirb d s r cc =>
    simp only [WellFormed, Bool.and_eq_true] at h
    obtain ⟨⟨⟨source, dest⟩, -⟩, condition⟩ := h
    apply decodeWords_repeat source dest (Cond.ne_t_of_blockLoadOk condition)
    exact (opcodeMap_blockByte s _).trans rfl
  case indr d s r cc | sindr d s r cc | inir d s r cc | sinir d s r cc | otdr d s r cc | sotdr d s r cc | otir d s r cc
    | sotir d s r cc =>
    simp only [WellFormed, Bool.and_eq_true] at h
    obtain ⟨⟨⟨source, dest⟩, -⟩, condition⟩ := h
    apply decodeWords_repeat source dest (Cond.ne_t_of_blockIoOk condition)
    exact (opcodeMap_ioWord s _).trans rfl
  case indrb d s r cc | sindrb d s r cc | inirb d s r cc | sinirb d s r cc | otdrb d s r cc | sotdrb d s r cc
    | otirb d s r cc | sotirb d s r cc =>
    simp only [WellFormed, Bool.and_eq_true] at h
    obtain ⟨⟨⟨source, dest⟩, -⟩, condition⟩ := h
    apply decodeWords_repeat source dest (Cond.ne_t_of_blockIoOk condition)
    exact (opcodeMap_ioByte s _).trans rfl
  case trdb d s r | trdrb d s r | trib d s r | trirb d s r =>
    simp only [WellFormed, Bool.and_eq_true] at h
    obtain ⟨⟨source, dest⟩, -⟩ := h
    apply decodeWords_translate dest source
    exact rfl
  case trtdb d s r | trtdrb d s r | trtib d s r | trtirb d s r =>
    simp only [WellFormed, Bool.and_eq_true] at h
    obtain ⟨⟨⟨⟨⟨source, dest⟩, -⟩, -⟩, -⟩, -⟩ := h
    apply decodeWords_translate dest source
    exact rfl
  -- extended processing
  case ldFromEpu d w1 id hi lo n =>
    exact decodeWords_row (epuWord_ldFromEpu id w1) (by simp [Decoding.run])
  case ldToEpu s w1 id hi lo n =>
    exact decodeWords_row (epuWord_ldToEpu id w1) (by simp [Decoding.run])
  case ldFromEpuMem d id x n =>
    apply decodeWords_wordThenMem h
    · exact fun _ _ hq hf => epuWord_ldFromEpuMem id hq hf
    · rw [xFields_append, bField_append]
  case ldToEpuMem s id x n =>
    apply decodeWords_wordThenMem h
    · exact fun _ _ hq hf => epuWord_ldToEpuMem id hq hf
    · rw [xFields_append, bField_append]
  case ldbFcwEpu w1 id hi lo =>
    exact decodeWords_row (epuByte_ldbFcwEpu id w1) (by simp [Decoding.run])
  case ldbEpuFcw w1 id hi lo =>
    exact decodeWords_row (epuByte_ldbEpuFcw id w1) (by simp [Decoding.run])
  case epui w1 id x n =>
    exact decodeWords_row (epuByte_epui id w1) (by simp [Decoding.run, xFields_append, bField_append])

end Sys2Proof
end

section
/-! No word of R155 begins an instruction of the tables (R157). A row of R155 asks for bits of the mode, of the opcode
and of bits 3:0, never of bits 7:4, so the words of a row are few up to that field, and the opcode map rejects each. -/

namespace Sys2Proof

/-- The values that agree with `value` where `mask` has a 1. -/
def maskSolutions {n : Nat} (mask value : BitVec n) : List (BitVec n) :=
  ((List.finRange (2 ^ n)).map BitVec.ofFin).filter (· &&& mask == value)

theorem mem_maskSolutions {n : Nat} {mask value x : BitVec n} (h : x &&& mask = value) :
    x ∈ maskSolutions mask value := by
  simp [maskSolutions, h]

/-- The first word is rejected as one that no table lists. -/
def Decoding.isUndocumented : Decoding → Bool
  | .bad .undocumented => true
  | _ => false

theorem Decoding.isUndocumented_iff {d : Decoding} : d.isUndocumented = true ↔ d = .bad .undocumented := by
  constructor
  · intro h
    unfold isUndocumented at h
    split at h
    · rfl
    · cases h
  · rintro rfl
    rfl

/-- The map rejects the words of the row that have `a` in bits 7:4. -/
def TrapRow.rejected (a : BitVec 4) (t : TrapRow) : Bool :=
  (maskSolutions (modeField t.mask) (modeField t.value)).all fun m =>
    (maskSolutions (opField t.mask) (opField t.value)).all fun op =>
      (maskSolutions (bField t.mask) (bField t.value)).all fun b =>
        m != 3 && (opcodeMap m op a b).isUndocumented

/-- Every row is rejected: the map answers before it looks at bits 7:4, so this evaluates with `a` unknown. -/
theorem trapRows_rejected (a : BitVec 4) : trapRows.all (TrapRow.rejected a) = true := rfl

/-- A word matches a row when its fields do. -/
theorem TrapRow.fields_of_match {t : TrapRow} {w : Word} (h : w &&& t.mask = t.value) :
    modeField w ∈ maskSolutions (modeField t.mask) (modeField t.value) ∧
    opField w ∈ maskSolutions (opField t.mask) (opField t.value) ∧
    bField w ∈ maskSolutions (bField t.mask) (bField t.value) := by
  rw [← h]
  exact ⟨mem_maskSolutions BitVec.extractLsb'_and.symm, mem_maskSolutions BitVec.extractLsb'_and.symm,
    mem_maskSolutions BitVec.extractLsb'_and.symm⟩

/-- A word of R155 is rejected by the opcode map. -/
theorem decode1_unimplemented {w : Word} (h : unimplemented w = true) : decode1 w = .bad .undocumented := by
  obtain ⟨t, ht, agrees⟩ := List.any_eq_true.mp h
  obtain ⟨hm, hop, hb⟩ := TrapRow.fields_of_match (beq_iff_eq.mp agrees)
  have rejected := List.all_eq_true.mp (trapRows_rejected (aField w)) t ht
  simp only [TrapRow.rejected, List.all_eq_true, Bool.and_eq_true, bne_iff_ne] at rejected
  obtain ⟨mode, undocumented⟩ := rejected _ hm _ hop _ hb
  rw [decode1, if_neg mode]
  exact Decoding.isUndocumented_iff.mp undocumented

/-- Settles O3: the decoder rejects the first word of R155 as undocumented, and names the trap. -/
theorem unimplementedWordsAreNoInstruction : Obligations.UnimplementedWordsAreNoInstruction := by
  intro w ws h
  rw [decodeWords, decode1_unimplemented h, Decoding.run, h]
  rfl

end Sys2Proof
end

section
/-! The condition codes (R130), and what they mean after a compare (R303). -/

namespace Sys2Proof

/-- The condition with the code eight away (R130). -/
def Cond.negated : Cond → Cond
  | .f => .t | .lt => .ge | .le => .gt | .ule => .ugt | .ov => .nov | .mi => .pl | .z => .nz | .c => .nc
  | .t => .f | .ge => .lt | .gt => .le | .ugt => .ule | .nov => .ov | .pl => .mi | .nz => .z | .nc => .c

theorem Cond.ofCode_add_eight : ∀ c : BitVec 4, Cond.ofCode (c + 8) = (Cond.ofCode c).negated := by decide

namespace Machine

theorem condHolds_negated (cc : Cond) (k : Fcw) : condHolds cc.negated k = !condHolds cc k := by
  cases cc <;> simp [Cond.negated, condHolds]

/-- Settles O20: the first eight codes by the table, the others as their negations. -/
theorem conditionTable : Obligations.ConditionTable := by
  intro k
  refine ⟨rfl, rfl, rfl, rfl, rfl, rfl, rfl, rfl, fun c => ?_⟩
  rw [Cond.ofCode_add_eight, condHolds_negated]

/-! ### The flags of a compare -/

section
variable {n : Nat} (a b : BitVec n) (k : Fcw)

/-- Without a borrow in, the value of `sub` is the difference modulo `2 ^ n` (R300). -/
theorem subOp_value : (subOp a b false).value = a - b := by
  apply BitVec.eq_of_toInt_eq
  rw [BitVec.toInt_sub, BitVec.toInt_eq_toNat_bmod a, BitVec.toInt_eq_toNat_bmod b]
  simp [subOp, BitVec.toInt_ofInt]

theorem compareFlags_c : (compareFlags a b k).c = decide (a.toNat < b.toNat) := by
  change decide ((a.toNat : Int) - b.toNat - (0 : Nat) < 0) = _
  rw [decide_eq_decide]
  omega

theorem compareFlags_z : (compareFlags a b k).z = decide (a = b) := by
  change ((subOp a b false).value == 0) = _
  rw [subOp_value, beq_eq_decide, decide_eq_decide]
  exact sub_eq_zero

/-- The sign of the difference, corrected where it overflows, is the signed order: operands of one sign do not
overflow, and of two signs the negative operand is the lesser. -/
theorem sign_xor_overflow :
    ((a - b).msb ^^ ((a.msb != b.msb) && ((a - b).msb != a.msb))) = decide (a.toInt < b.toInt) := by
  by_cases h : a.msb = b.msb
  · have fits : ¬a.ssubOverflow b = true := by simp [BitVec.ssubOverflow_eq, h]
    have sub : (a - b).toInt = a.toInt - b.toInt := BitVec.toInt_sub_of_not_ssubOverflow fits
    simp [h, BitVec.msb_eq_toInt (x := a - b), sub]
  · have order : (a.toInt < b.toInt) ↔ a.msb = true := by
      rw [BitVec.msb_eq_toInt, BitVec.msb_eq_toInt] at h
      rw [BitVec.msb_eq_toInt]
      grind
    have differ : (a.msb != b.msb) = true := bne_iff_ne.mpr h
    rw [differ, Bool.true_and, decide_eq_decide.mpr order, Bool.decide_coe]
    cases (a - b).msb <;> simp

theorem compareFlags_lt : ((compareFlags a b k).s ^^ (compareFlags a b k).v) = decide (a.toInt < b.toInt) := by
  change ((subOp a b false).value.msb ^^ ((a.msb != b.msb) && ((subOp a b false).value.msb != a.msb))) = _
  rw [subOp_value]
  exact sign_xor_overflow a b

theorem compareFlags_le :
    ((compareFlags a b k).z || ((compareFlags a b k).s ^^ (compareFlags a b k).v)) = decide (a.toInt ≤ b.toInt) := by
  rw [compareFlags_z, compareFlags_lt, ← Bool.decide_or, decide_eq_decide, ← BitVec.toInt_inj]
  omega

theorem compareFlags_ule :
    ((compareFlags a b k).c || (compareFlags a b k).z) = decide (a.toNat ≤ b.toNat) := by
  rw [compareFlags_z, compareFlags_c, ← Bool.decide_or, decide_eq_decide, ← BitVec.toNat_inj]
  omega

end

/-- Settles O21: each condition is one of the flags or the negation of one. -/
theorem comparisonsMeanOrder : Obligations.ComparisonsMeanOrder := by
  intro z a b k
  have hc := compareFlags_c a b k
  have hz := compareFlags_z a b k
  have lt := compareFlags_lt a b k
  have le := compareFlags_le a b k
  have ule := compareFlags_ule a b k
  refine ⟨lt, le, ?_, ?_, hc, ule, ?_, hz⟩
  · change (!_) = _
    rw [lt, ← decide_not, decide_eq_decide, not_lt]
  · change (!_) = _
    rw [le, ← decide_not, decide_eq_decide, not_le]
  · change (!_ && !_) = _
    rw [← Bool.not_or, ule, ← decide_not, decide_eq_decide, not_le]

end Machine

end Sys2Proof
end

section
/-! Words of the encoding tables (R110 to R122): each is the encoding of the instruction it stands for. -/

namespace Sys2Proof

/-- The words of a well-formed instruction decode to it, with nothing left over. -/
theorem decodeWords_of_encode {i : Instr} {ws : List Word} (words : encode i = ws) (wf : WellFormed i = true) :
    decodeWords ws = .ok (i, []) := by
  rw [← words, ← List.append_nil (encode i)]
  exact decodeInvertsEncode i [] wf

/-- Settles O2: the encoder gives the listed words. -/
theorem decodesSpecWords : Obligations.DecodesSpecWords :=
  ⟨decodeWords_of_encode rfl rfl, decodeWords_of_encode rfl rfl, decodeWords_of_encode rfl rfl,
    decodeWords_of_encode rfl rfl, decodeWords_of_encode rfl rfl, decodeWords_of_encode rfl rfl,
    decodeWords_of_encode rfl rfl, decodeWords_of_encode rfl rfl, decodeWords_of_encode rfl rfl,
    decodeWords_of_encode rfl rfl, decodeWords_of_encode rfl rfl, decodeWords_of_encode rfl rfl⟩

end Sys2Proof
end

section
/-! Loads, stores, exchanges and the stack (R201 to R208, R211 to R214). What each operation of 40_load_exchange.md answers
is said once, for every operand size and whatever transactions came before it. -/

namespace Sys2Proof.Machine

section
variable {z : Size} {sp : Space} {a : Word} {c : Reg} {dst : Dst} {s t : State}

/-! ### The last operation of an instruction -/

theorem writeReg_answers (h : regFits z c = true) (v : BitVec z.bits) (s : State) (bus : List BusEvent)
    (trace : Option (List Point)) :
    Answers (answer (writeReg z c v { s with bus := bus, trace := trace })) (s.setReg z c v) := by
  rw [writeReg_eq, if_pos h, State.setReg_bus]
  exact ⟨bus, trace, rfl⟩

theorem State.setWord_with_bus (s : State) (c : Reg) (v : Word) (bus : List BusEvent) (trace : Option (List Point)) :
    State.setWord { s with bus := bus, trace := trace } c v = { s.setWord c v with bus := bus, trace := trace } :=
  State.setReg_bus .w ..

/-- A write that completes: `store_spec` where the address can be accessed. -/
theorem store_ready (sp : Space) (h : s.reaches z a = true) (v : BitVec z.bits) (bus : List BusEvent)
    (trace : Option (List Point)) :
    ∃ bus' trace', store z sp a v { s with bus := bus, trace := trace } =
      .ok { s.putAt z sp a v with bus := bus', trace := trace' } := by
  have e := store_spec z sp a v { s with bus := bus, trace := trace }
  rwa [if_pos (show State.reaches z a { s with bus := bus, trace := trace } = true from h), State.putAt_bus] at e

theorem store_answers (sp : Space) (h : s.reaches z a = true) (v : BitVec z.bits) (bus : List BusEvent)
    (trace : Option (List Point)) :
    Answers (answer (store z sp a v { s with bus := bus, trace := trace })) (s.putAt z sp a v) := by
  obtain ⟨bus', trace', e⟩ := store_ready sp h v bus trace
  exact ⟨bus', trace', congrArg answer e⟩

theorem memEA_bus (m : Mem) (s : State) (bus : List BusEvent) (trace : Option (List Point)) :
    memEA m { s with bus := bus, trace := trace } = memEA m s := by cases m <;> rfl

theorem writeDst_answers (h : s.dstReady z dst = true) (v : BitVec z.bits) (bus : List BusEvent)
    (trace : Option (List Point)) :
    Answers (answer (writeDst z dst v { s with bus := bus, trace := trace })) (s.putDst z dst v) := by
  cases dst with
  | reg c => exact writeReg_answers h v s bus trace
  | mem m =>
    rw [writeDst, memEA_bus]
    exact store_answers _ h v bus trace

/-! ### An operation that follows an access -/

/-- A read leaves the rest of the instruction a state with another bus record alone. -/
theorem read_then {α : Type} {x : Comp (α × State)} {v : α} {f : α × State → Comp State}
    (hx : ∃ bus trace, x = .ok (v, { s with bus := bus, trace := trace }))
    (next : ∀ bus trace, Answers (answer (f (v, { s with bus := bus, trace := trace }))) t) :
    Answers (answer (x >>= f)) t := by
  obtain ⟨bus, trace, e⟩ := hx
  rw [bind_goesOn e]
  exact next bus trace

/-- A write that completes leaves the rest of the instruction the state it stored in. -/
theorem store_then {f : State → Comp State} (h : s.reaches z a = true) {v : BitVec z.bits} {bus : List BusEvent}
    {trace : Option (List Point)}
    (next : ∀ bus trace, Answers (answer (f { s.putAt z sp a v with bus := bus, trace := trace })) t) :
    Answers (answer (store z sp a v { s with bus := bus, trace := trace } >>= f)) t := by
  obtain ⟨bus', trace', e⟩ := store_ready sp h v bus trace
  rw [bind_goesOn e]
  exact next bus' trace'

end

section
variable (z : Size) {c d p : Reg} {dst : Dst} {s : State}

/-! ### Loads and stores (R203, R204, R211, R212) -/

theorem loadReg_answers {src : LdSrc} (hd : regFits z d = true) (h : s.ldReady z src = true) :
    Answers (answer (loadReg z d src s)) (s.setReg z d (s.ldValue z src)) := by
  cases src with
  | reg c =>
    rw [loadReg, bind_goesOn (readReg_fits h)]
    exact writeReg_answers hd _ s s.bus s.trace
  | mem m => exact read_then (load_ready z _ h) (writeReg_answers hd _ s)

theorem loadRelative_answers {disp : Word} (hd : regFits z d = true) (h : s.reaches z (s.pc + disp) = true) :
    Answers (answer (loadRelative z d disp s)) (s.setReg z d (s.valueAt z .prog (s.pc + disp))) :=
  read_then (load_ready z _ h) (writeReg_answers hd _ s)

theorem storeReg_answers {m : LdMem} (hc : regFits z c = true) (h : s.reaches z (ldEA m s).2 = true) :
    Answers (answer (storeReg z m c s)) (s.putAt z (ldEA m s).1 (ldEA m s).2 (s.reg z c)) := by
  rw [storeReg, bind_goesOn (readReg_fits hc)]
  exact store_answers _ h _ s.bus s.trace

theorem storeRelative_answers {disp : Word} (hc : regFits z c = true) (h : s.reaches z (s.pc + disp) = true) :
    Answers (answer (storeRelative z disp c s)) (s.putAt z .prog (s.pc + disp) (s.reg z c)) := by
  rw [storeRelative, bind_goesOn (readReg_fits hc)]
  exact store_answers _ h _ s.bus s.trace

/-- Settles O27: a pair code alone is checked (R25), and a byte access completes at every address (R86), so these
conditions hold by computation where the statement has none. -/
theorem loadsAndStores : Obligations.LoadsAndStores :=
  ⟨⟨fun _ _ _ => ⟨loadReg_answers .w rfl, loadReg_answers .b rfl, loadReg_answers .l⟩,
    fun _ _ _ => ⟨loadRelative_answers .b rfl rfl, fun h => ⟨loadRelative_answers .w rfl h,
      fun hd => loadRelative_answers .l hd h⟩⟩⟩,
   ⟨fun _ _ _ => ⟨storeReg_answers .b rfl rfl, fun h => ⟨storeReg_answers .w rfl h,
      fun hc => storeReg_answers .l hc h⟩⟩,
    fun _ _ _ => ⟨storeRelative_answers .b rfl rfl, fun h => ⟨storeRelative_answers .w rfl h,
      fun hc => storeRelative_answers .l hc h⟩⟩⟩⟩

/-! ### Constants and addresses (R201, R205 to R208) -/

/-- A byte destination can always be written (R86). -/
theorem State.dstReady_byte (dst : Dst) (s : State) : s.dstReady .b dst = true := by cases dst <;> rfl

theorem setWidth_nibble (k : BitVec 4) : k.setWidth 16 = 0#12 ++ k :=
  BitVec.setWidth_eq_append (by omega)

/-- Settles O28: each is one write of a destination or a register. -/
theorem loadsConstant : Obligations.LoadsConstant := by
  refine ⟨fun d s h => ?_, fun d s => ?_, fun d s => ⟨fun v => ?_, fun v hd => ?_, fun k => ?_⟩⟩
  · exact ⟨writeDst_answers h _ s.bus s.trace, fun v => writeDst_answers h v s.bus s.trace⟩
  · have h := s.dstReady_byte d
    exact ⟨writeDst_answers h _ s.bus s.trace, fun v => writeDst_answers h v s.bus s.trace⟩
  · exact Answers.next _
  · exact writeReg_answers (z := .l) hd v s s.bus s.trace
  · rw [← setWidth_nibble]
    exact Answers.next _

/-- The discarded read of LDA and LDAR is one word read, at odd addresses too (R90, log entry 28). -/
theorem discardRead_events (sp : Space) (a : Word) (s : State) :
    ∃ trace, discardRead sp a s = s.recorded (s.readEvents .w sp a) trace := ⟨_, rfl⟩

/-- A register written after the discarded read at an address. -/
theorem setWord_discardRead_does (d : Reg) (v : Word) (sp : Space) (a : Word) (s : State) :
    Does (.next ((discardRead sp a s).setWord d v)) (s.setWord d v) (s.readEvents .w sp a) := by
  obtain ⟨trace, e⟩ := discardRead_events sp a s
  rw [e, State.recorded_setWord]
  exact ⟨trace, rfl⟩

/-- Settles O29. -/
theorem loadsAddress : Obligations.LoadsAddress := fun d s =>
  ⟨fun m => setWord_discardRead_does d (addrEA m s).2 (addrEA m s).1 (addrEA m s).2 s,
   fun disp => setWord_discardRead_does d (s.pc + disp) .prog (s.pc + disp) s⟩

/-! ### Exchanges (R202) -/

theorem exchange_reg_answers (hd : regFits z d = true) (hc : regFits z c = true) (s : State) :
    Answers (answer (exchange z d (.reg c) s)) ((s.setReg z c (s.reg z d)).setReg z d (s.reg z c)) := by
  rw [exchange, bind_goesOn (readReg_fits hc), bind_goesOn (readReg_fits hd), writeReg_eq, if_pos hc]
  exact writeReg_answers hd _ (s.setReg z c (s.reg z d)) _ _

theorem exchange_mem_answers {m : Mem} (hd : regFits z d = true) (h : s.memReady z m = true) :
    Answers (answer (exchange z d (.mem m) s))
      ((s.putAt z (memEA m s).1 (memEA m s).2 (s.reg z d)).setReg z d (s.dstValue z (.mem m))) := by
  refine read_then (load_ready z _ h) fun bus trace => ?_
  dsimp only
  rw [bind_goesOn (readReg_fits hd), State.reg_bus]
  exact store_then h (writeReg_answers hd _ _)

/-- Settles O30: the source is written first, then the register. -/
theorem exchanges : Obligations.Exchanges := fun _ s =>
  ⟨fun _ => exchange_reg_answers .w rfl rfl s, fun _ => exchange_reg_answers .b rfl rfl s,
   fun _ => exchange_mem_answers .w rfl, fun _ => exchange_mem_answers .b rfl rfl⟩

/-! ### The stack (R213, R214) -/

theorem pushValue_answers (h : s.reaches z (s.word p - z.bytes) = true) (v : BitVec z.bits) (bus : List BusEvent)
    (trace : Option (List Point)) :
    Answers (answer (pushValue z p v { s with bus := bus, trace := trace }))
      ((s.setWord p (s.word p - z.bytes)).putAt z (dsp p) (s.word p - z.bytes) v) := by
  show Answers (answer (store z _ _ _ (State.setWord { s with bus := bus, trace := trace } p (s.word p - z.bytes)))) _
  rw [State.setWord_with_bus]
  exact store_answers _ ((State.setWord_reaches ..).trans h) v _ _

/-- The pointer moves before the destination is written, which can be written then as it could before. -/
theorem dstReady_setWord {z : Size} (hs : popSeparate z p dst = true) (h : s.dstReady z dst = true) (v : Word) :
    (s.setWord p v).dstReady z dst = true := by
  cases dst with
  | reg c => exact h
  | mem m =>
    rw [State.dstReady, State.memReady, memEA_setWord hs, State.setWord_reaches]
    exact h

theorem popTo_answers (hs : popSeparate z p dst = true) (hp : s.reaches z (s.word p) = true)
    (h : s.dstReady z dst = true) :
    Answers (answer (popTo z dst p s))
      ((s.setWord p (s.word p + z.bytes)).putDst z dst (s.valueAt z (dsp p) (s.word p))) := by
  rw [popTo, require_goesOn hs]
  refine read_then (load_ready z _ hp) fun bus trace => ?_
  simp only [State.setWord_with_bus]
  exact writeDst_answers (dstReady_setWord hs h _) _ bus trace

/-- Settles O32: the source is read before the pointer moves, the stack word before the destination is written. -/
theorem stackInstructions : Obligations.StackInstructions := fun _ s =>
  ⟨fun src h hp => read_then (readSrc_spec .w src s h) (pushValue_answers .w hp _),
   fun src h hp => read_then (readDst_spec .l src s h) (pushValue_answers .l hp _),
   fun _ => popTo_answers .w, fun _ => popTo_answers .l⟩

end

end Sys2Proof.Machine
end

section
/-! LDM (R209, R210): the registers and the words in memory it moves, by induction on their number. A register or word
moved later is never one moved before, for there are at most sixteen. -/

namespace Sys2Proof.Machine

section
variable {n : Nat} {sp : Space} {a : Word} {c : Reg} {s t : State}

/-! ### Consecutive registers and words -/

theorem reg_add_ofNat_zero (c : Reg) : c + BitVec.ofNat 4 0 = c := BitVec.add_zero _

theorem reg_add_ofNat_succ (c : Reg) (k : Nat) : c + BitVec.ofNat 4 (k + 1) = c + 1 + BitVec.ofNat 4 k := by
  rw [BitVec.add_assoc, Nat.add_comm, BitVec.ofNat_add]
  rfl

/-- Sixteen consecutive registers are all different (R209). -/
theorem reg_ne_later (c : Reg) {k : Nat} (h : k < 15) : c ≠ c + 1 + BitVec.ofNat 4 k := by
  bv_omega

/-- Bit 0 is dropped from every address of a run of words, or from the first (R86). -/
theorem evenAddress_add_two_mul (a : Word) (k : Nat) :
    evenAddress (a + 2 * BitVec.ofNat 16 k) = evenAddress a + 2 * BitVec.ofNat 16 k := by
  induction k generalizing a with
  | zero => rw [add_two_mul_zero, add_two_mul_zero]
  | succ k ih => rw [← add_two_mul, ih, evenAddress_second, add_two_mul]

/-- None of fifteen words after the one at `a` covers a byte of it. -/
theorem State.not_covers_earlier (s : State) (sp : Space) (a : Word) {k : Nat} (h : k < 15) :
    s.covers .w sp (a + 2 + 2 * BitVec.ofNat 16 k) (s.key sp (evenAddress a)) = false ∧
    s.covers .w sp (a + 2 + 2 * BitVec.ofNat 16 k) (s.key sp (evenAddress a + 1)) = false := by
  simp only [State.covers, evenAddress_add_two_mul, evenAddress_second, Bool.or_eq_false_iff, beq_eq_false_iff_ne,
    ne_eq, State.key_inj]
  generalize evenAddress a = e
  refine ⟨⟨?_, ?_⟩, ?_, ?_⟩ <;> intro eq <;> bv_omega

/-! ### The load form -/

/-- From `s` to `t` the `n` registers from `c` on took the words from `sp:a` on, and of the rest only the bus record and the
points may differ. -/
structure LoadedMany (sp : Space) (n : Nat) (a : Word) (c : Reg) (s t : State) : Prop where
  loaded : ∀ k < n, t.word (c + BitVec.ofNat 4 k) = s.valueAt .w sp (a + 2 * BitVec.ofNat 16 k)
  kept : ∀ r, (∀ k < n, r ≠ c + BitVec.ofNat 4 k) → t.word r = s.word r
  rest : ∃ regs nsp bus trace, t = { s with regs := regs, nsp := nsp, bus := bus, trace := trace }

theorem LoadedMany.refl (sp : Space) (a : Word) (c : Reg) (s : State) : LoadedMany sp 0 a c s s :=
  ⟨nofun, fun _ _ => rfl, s.regs, s.nsp, s.bus, s.trace, rfl⟩

/-- A register write changes R0 to R14 and the two stack pointers alone. -/
theorem State.setWord_eq (s : State) (c : Reg) (v : Word) :
    ∃ regs nsp, s.setWord c v = { s with regs := regs, nsp := nsp } := by
  unfold State.setWord
  split
  · exact ⟨s.regs, v, rfl⟩
  · exact ⟨s.regs.set c.toNat v c.isLt, s.nsp, rfl⟩

/-- One register more, in front: later registers are others, and a register write changes no memory. -/
theorem LoadedMany.cons {bus : List BusEvent} {trace : Option (List Point)} (hn : n < 16)
    (h : LoadedMany sp n (a + 2) (c + 1) (State.setWord { s with bus := bus, trace := trace } c (s.valueAt .w sp a)) t) :
    LoadedMany sp (n + 1) a c s t where
  loaded k hk := by
    cases k with
    | zero =>
      rw [reg_add_ofNat_zero, add_two_mul_zero, h.kept c fun k hk => reg_ne_later c (by omega),
        State.word_setWord_self]
    | succ k =>
      rw [reg_add_ofNat_succ, h.loaded k (by omega), add_two_mul]
      exact State.setWord_peekWord ..
  kept r hr := by
    have hc : r ≠ c := by simpa using hr 0 (by omega)
    have later : ∀ k < n, r ≠ c + 1 + BitVec.ofNat 4 k := fun k hk =>
      reg_add_ofNat_succ c k ▸ hr (k + 1) (by omega)
    rw [h.kept r later, State.word_setWord_ne _ _ hc]
    rfl
  rest := by
    obtain ⟨regs, nsp, bus', trace', e⟩ := h.rest
    obtain ⟨regs', nsp', e'⟩ := State.setWord_eq { s with bus := bus, trace := trace } c (s.valueAt .w sp a)
    exact ⟨regs, nsp, bus', trace', by rw [e, e']⟩

theorem loadMany_loaded (sp : Space) (n : Nat) (a : Word) (c : Reg) (s : State) (hn : n ≤ 16)
    (h : s.reaches .w a = true) : ∃ t, loadMany sp n a c s = .ok t ∧ LoadedMany sp n a c s t := by
  induction n generalizing a c s with
  | zero => exact ⟨s, rfl, LoadedMany.refl sp a c s⟩
  | succ n ih =>
    obtain ⟨bus, trace, e⟩ := load_ready .w sp h
    obtain ⟨t, e', ht⟩ := ih (a + 2) (c + 1) (State.setWord { s with bus := bus, trace := trace } c (s.valueAt .w sp a))
      (by omega) (by rw [State.setWord_reaches, State.reaches_add_two]; exact h)
    exact ⟨t, (bind_goesOn e).trans e', ht.cons (by omega)⟩

/-! ### The store form -/

/-- From `s` to `t` the `n` words from `sp:a` on took the registers from `c` on, and of the rest only the bus record and the
points may differ. -/
structure StoredMany (sp : Space) (n : Nat) (a : Word) (c : Reg) (s t : State) : Prop where
  stored : ∀ k < n, t.valueAt .w sp (a + 2 * BitVec.ofNat 16 k) = s.word (c + BitVec.ofNat 4 k)
  kept : ∀ x, (∀ k < n, s.covers .w sp (a + 2 * BitVec.ofNat 16 k) x = false) → Memory.read t.mem x = Memory.read s.mem x
  rest : ∃ mem bus trace, t = { s with mem := mem, bus := bus, trace := trace }

theorem StoredMany.refl (sp : Space) (a : Word) (c : Reg) (s : State) : StoredMany sp 0 a c s s :=
  ⟨nofun, fun _ _ => rfl, s.mem, s.bus, s.trace, rfl⟩

/-- The word in front of those stored is still there. -/
theorem StoredMany.valueAt_earlier (hn : n < 16) (h : StoredMany sp n (a + 2) c s t) :
    t.valueAt .w sp a = s.valueAt .w sp a := by
  have hi := h.kept (s.key sp (evenAddress a)) fun k hk => (s.not_covers_earlier sp a (by omega)).1
  have lo := h.kept (s.key sp (evenAddress a + 1)) fun k hk => (s.not_covers_earlier sp a (by omega)).2
  obtain ⟨mem, bus, trace, rfl⟩ := h.rest
  exact congrArg₂ (· ++ ·) hi lo

/-- One word more, in front. -/
theorem StoredMany.cons {bus : List BusEvent} {trace : Option (List Point)} (hn : n < 16)
    (h : StoredMany sp n (a + 2) (c + 1) { s.putAt .w sp a (s.word c) with bus := bus, trace := trace } t) :
    StoredMany sp (n + 1) a c s t where
  stored k hk := by
    cases k with
    | zero =>
      rw [add_two_mul_zero, reg_add_ofNat_zero, h.valueAt_earlier hn, State.valueAt_bus]
      exact State.valueAt_putAt_self .w sp a (s.word c) s
    | succ k =>
      rw [← add_two_mul, h.stored k (by omega), reg_add_ofNat_succ]
      rfl
  kept x hx := by
    have first : s.covers .w sp a x = false := by simpa using hx 0 (by omega)
    have later : ∀ k < n, s.covers .w sp (a + 2 + 2 * BitVec.ofNat 16 k) x = false := fun k hk =>
      add_two_mul a k ▸ hx (k + 1) (by omega)
    exact (h.kept x later).trans (State.read_putAt_of_not_covers _ first)
  rest := h.rest

theorem storeMany_stored (sp : Space) (n : Nat) (a : Word) (c : Reg) (s : State) (hn : n ≤ 16)
    (h : s.reaches .w a = true) : ∃ t, storeMany sp n a c s = .ok t ∧ StoredMany sp n a c s t := by
  induction n generalizing a c s with
  | zero => exact ⟨s, rfl, StoredMany.refl sp a c s⟩
  | succ n ih =>
    obtain ⟨bus, trace, e⟩ := store_ready sp h (s.word c) s.bus s.trace
    obtain ⟨t, e', ht⟩ := ih (a + 2) (c + 1) { s.putAt .w sp a (s.word c) with bus := bus, trace := trace }
      (by omega) ((State.reaches_add_two s a).trans h)
    exact ⟨t, (bind_goesOn e).trans e', ht.cons (by omega)⟩

/-- Settles O31: the runs of `n + 1` registers and words, and for the stack pointer of the other mode what an
instruction leaves alone. -/
theorem ldmMovesRegisters : Obligations.LdmMovesRegisters := by
  intro c m n s h
  have hn : n.toNat + 1 ≤ 16 := n.isLt
  constructor
  · obtain ⟨t, e, ht⟩ := loadMany_loaded (memEA m s).1 (n.toNat + 1) (memEA m s).2 c s hn h
    have w : Within none true s t := (loadMany_within s _ _ _ _).of_ok t e
    refine ⟨t, answer_next.2 e, fun k hk => ht.loaded k (by omega), fun r hr => ht.kept r fun k hk => hr k (by omega),
      w.nsp, w.ssp, ?_⟩
    obtain ⟨regs, nsp, bus, trace, rfl⟩ := ht.rest
    rfl
  · obtain ⟨t, e, ht⟩ := storeMany_stored (memEA m s).1 (n.toNat + 1) (memEA m s).2 c s hn h
    refine ⟨t, answer_next.2 e, fun k hk => ht.stored k (by omega), fun x hx => ht.kept x fun k hk => hx k (by omega), ?_⟩
    obtain ⟨mem, bus, trace, rfl⟩ := ht.rest
    rfl

end

end Sys2Proof.Machine
end

section
/-! Additions, subtractions and compares (R300 to R304, R306, R309, R311 to R313). The operations of the model compute
the overflow from signs; here each is the sum or difference of the exact values, and C and V say when that does not fit. -/

namespace Sys2Proof.Machine

/-! ### Values of `n` bits -/

section
variable {n : Nat}

theorem Fcw.zs_eq_resultFlags (k : Fcw) (r : BitVec n) : k.zs r = resultFlags r k := by
  rw [Fcw.zs, resultFlags, BitVec.msb_eq_toInt, beq_eq_decide]

theorem fits_iff {x : Int} : fits n x = true ↔ -(2 ^ (n - 1)) ≤ x ∧ x < 2 ^ (n - 1) := decide_eq_true_iff

/-- The width and the range of its signed numbers: `2 ^ n` is twice `2 ^ (n - 1)`. -/
theorem two_pow_eq_two_mul (hn : 0 < n) : (2 : Int) ^ n = 2 * 2 ^ (n - 1) := by
  rw [← pow_succ', Nat.sub_add_cancel hn]

/-- An integer less than one wrap out of range: the sign of its `n` bits is right exactly when it fits. -/
theorem msb_ofInt_eq {x : Int} (hn : 0 < n) (lo : -2 ^ n ≤ x) (hi : x < 2 ^ n) :
    (BitVec.ofInt n x).msb = (decide (x < 0) == fits n x) := by
  have pow := two_pow_eq_two_mul hn
  have cast : ((2 ^ n : Nat) : Int) = 2 ^ n := by push_cast; rfl
  have pos : (0 : Int) < 2 ^ (n - 1) := by positivity
  rw [BitVec.msb_eq_toInt, BitVec.toInt_ofInt]
  by_cases h : fits n x = true
  · obtain ⟨lo', hi'⟩ := fits_iff.1 h
    rw [Int.bmod_eq_of_le_mul_two (by omega) (by omega), h]
    simp
  · have out : ¬(-(2 ^ (n - 1)) ≤ x ∧ x < 2 ^ (n - 1)) := fun r => h (fits_iff.2 r)
    rw [Bool.eq_false_iff.2 h]
    by_cases neg : x < 0
    · rw [← Int.add_bmod_right, Int.bmod_eq_of_le_mul_two (by omega) (by omega)]
      simp [neg]
      omega
    · rw [← Int.sub_bmod_right, Int.bmod_eq_of_le_mul_two (by omega) (by omega)]
      simp [neg]
      omega

/-! ### Addition and subtraction (R300) -/

theorem addOp_value (a b : BitVec n) (c : Bool) : (addOp a b c).value = a + b + BitVec.ofNat n c.toNat := by
  change BitVec.ofNat n (a.toNat + b.toNat + c.toNat) = _
  simp only [BitVec.ofNat_add, BitVec.ofNat_toNat, BitVec.setWidth_eq]

theorem addOp_value_eq_ofInt (a b : BitVec n) (c : Bool) :
    (addOp a b c).value = BitVec.ofInt n (a.toInt + b.toInt + c.toNat) := by
  simp only [addOp_value, BitVec.ofInt_add, BitVec.ofInt_toInt, BitVec.ofInt_natCast]

theorem subOp_value_borrow (a b : BitVec n) (c : Bool) : (subOp a b c).value = a - b - BitVec.ofNat n c.toNat := by
  change BitVec.ofInt n ((a.toNat : Int) - b.toNat - c.toNat) = _
  simp only [sub_eq_add_neg, BitVec.ofInt_add, BitVec.ofInt_neg, BitVec.ofInt_natCast, BitVec.ofNat_toNat,
    BitVec.setWidth_eq]

theorem subOp_value_eq_ofInt (a b : BitVec n) (c : Bool) :
    (subOp a b c).value = BitVec.ofInt n (a.toInt - b.toInt - c.toNat) := by
  simp only [subOp_value_borrow, sub_eq_add_neg, BitVec.ofInt_add, BitVec.ofInt_neg, BitVec.ofInt_natCast,
    BitVec.ofInt_toInt]

theorem subOp_carry (a b : BitVec n) (c : Bool) : (subOp a b c).carry = decide (a.toNat < b.toNat + c.toNat) := by
  change decide ((a.toNat : Int) - b.toNat - c.toNat < 0) = _
  rw [decide_eq_decide]
  omega

theorem subOp_half (a b : BitVec n) (c : Bool) :
    (subOp a b c).half = decide (a.toNat % 16 < b.toNat % 16 + c.toNat) := by
  change decide (((a.toNat % 16 : Nat) : Int) - (b.toNat % 16 : Nat) - c.toNat < 0) = _
  rw [decide_eq_decide]
  omega

/-- Operands of one sign: the exact sum has it too, so a result of the other sign is out of range. Operands of two signs:
the exact sum is in range. -/
theorem addOp_overflow (hn : 0 < n) (a b : BitVec n) (c : Bool) :
    (addOp a b c).overflow = !fits n (a.toInt + b.toInt + c.toNat) := by
  change ((a.msb == b.msb) && ((addOp a b c).value.msb != a.msb)) = _
  have pow := two_pow_eq_two_mul hn
  have ha := And.intro a.le_toInt a.toInt_lt
  have hb := And.intro b.le_toInt b.toInt_lt
  have hc := c.toNat_le
  rw [addOp_value_eq_ofInt, msb_ofInt_eq hn (by omega) (by omega), BitVec.msb_eq_toInt, BitVec.msb_eq_toInt]
  by_cases same : a.toInt < 0 ↔ b.toInt < 0
  · have sign : a.toInt + b.toInt + c.toNat < 0 ↔ a.toInt < 0 := by omega
    rw [decide_eq_decide.2 sign, decide_eq_decide.2 same]
    cases decide (b.toInt < 0) <;> simp
  · have inRange : fits n (a.toInt + b.toInt + c.toNat) = true := fits_iff.2 (by omega)
    have differ : (decide (a.toInt < 0) == decide (b.toInt < 0)) = false :=
      beq_false_of_ne fun e => same (decide_eq_decide.1 e)
    rw [inRange, differ]
    rfl

/-- Operands of one sign: the exact difference is in range. Operands of two signs: it has the sign of the minuend, so a
result of the other sign is out of range. -/
theorem subOp_overflow (hn : 0 < n) (a b : BitVec n) (c : Bool) :
    (subOp a b c).overflow = !fits n (a.toInt - b.toInt - c.toNat) := by
  change ((a.msb != b.msb) && ((subOp a b c).value.msb != a.msb)) = _
  have pow := two_pow_eq_two_mul hn
  have ha := And.intro a.le_toInt a.toInt_lt
  have hb := And.intro b.le_toInt b.toInt_lt
  have hc := c.toNat_le
  rw [subOp_value_eq_ofInt, msb_ofInt_eq hn (by omega) (by omega), BitVec.msb_eq_toInt, BitVec.msb_eq_toInt]
  by_cases same : a.toInt < 0 ↔ b.toInt < 0
  · have inRange : fits n (a.toInt - b.toInt - c.toNat) = true := fits_iff.2 (by omega)
    rw [inRange, decide_eq_decide.2 same, bne_self_eq_false]
    rfl
  · have sign : a.toInt - b.toInt - c.toNat < 0 ↔ a.toInt < 0 := by omega
    have differ : (decide (a.toInt < 0) != decide (b.toInt < 0)) = true :=
      bne_iff_ne.2 fun e => same (decide_eq_decide.1 e)
    rw [differ, decide_eq_decide.2 sign]
    cases decide (a.toInt < 0) <;> simp

theorem arith_addOp (hn : 0 < n) (a b : BitVec n) (c : Bool) (k : Fcw) :
    k.arith (addOp a b c) = (sumOf a b c k).2 := by
  rw [Fcw.arith, Fcw.zs_eq_resultFlags, addOp_value, addOp_overflow hn]
  rfl

theorem arith_subOp (hn : 0 < n) (a b : BitVec n) (c : Bool) (k : Fcw) :
    k.arith (subOp a b c) = (differenceOf a b c k).2 := by
  rw [Fcw.arith, Fcw.zs_eq_resultFlags, subOp_value_borrow, subOp_overflow hn, subOp_carry]
  rfl

/-! ### The shared operations -/

theorem addWith_eq (hn : 0 < n) (carry : Bool) (a b : BitVec n) (k : Fcw) :
    addWith carry a b k = sumOf a b (carry && k.c) k := Prod.ext (addOp_value ..) (arith_addOp hn ..)

theorem subWith_eq (hn : 0 < n) (carry : Bool) (a b : BitVec n) (k : Fcw) :
    subWith carry a b k = differenceOf a b (carry && k.c) k := Prod.ext (subOp_value_borrow ..) (arith_subOp hn ..)

theorem compareFlags_eq (hn : 0 < n) (a b : BitVec n) (k : Fcw) : compareFlags a b k = compareOf a b k :=
  arith_subOp hn a b false k

theorem addByteWith_eq (carry : Bool) (a b : Byte) (k : Fcw) : addByteWith carry a b k =
    ((sumOf a b (carry && k.c) k).1, sumDigits a b (carry && k.c) (sumOf a b (carry && k.c) k).2) := by
  refine Prod.ext (addOp_value ..) ?_
  change k.arithByte (addOp a b (carry && k.c)) false = _
  rw [Fcw.arithByte, arith_addOp (by decide)]
  rfl

theorem subByteWith_eq (carry : Bool) (a b : Byte) (k : Fcw) : subByteWith carry a b k =
    ((differenceOf a b (carry && k.c) k).1,
      differenceDigits a b (carry && k.c) (differenceOf a b (carry && k.c) k).2) := by
  refine Prod.ext (subOp_value_borrow ..) ?_
  change k.arithByte (subOp a b (carry && k.c)) true = _
  rw [Fcw.arithByte, arith_subOp (by decide), subOp_half]
  rfl

theorem incBy_eq (hn : 0 < n) (field : BitVec 4) (v : BitVec n) (k : Fcw) : incBy field v k =
    ((sumOf v (amount field) false k).1, { (sumOf v (amount field) false k).2 with c := k.c }) := by
  rw [← arith_addOp hn]
  exact Prod.ext (addOp_value ..) rfl

theorem decBy_eq (hn : 0 < n) (field : BitVec 4) (v : BitVec n) (k : Fcw) : decBy field v k =
    ((differenceOf v (amount field) false k).1, { (differenceOf v (amount field) false k).2 with c := k.c }) := by
  rw [← arith_subOp hn]
  exact Prod.ext (subOp_value_borrow ..) rfl

/-- The amount is the field plus one, 1 to 16 (R306, R309). -/
theorem amount_eq (field : BitVec 4) : (amount field : BitVec n) = field.setWidth n + 1 := by
  rw [amount, BitVec.ofNat_add, BitVec.ofNat_toNat]
  rfl

theorem negate_eq (hn : 0 < n) (cfg : Cfg) (v : BitVec n) (k : Fcw) : negate cfg v k =
    (-v, { (differenceOf 0 v false k).2 with
      c := match cfg.negCarry with | .borrow => decide (v ≠ 0) | .zero => decide (v = 0) }) := by
  have value : (subOp 0 v false).value = -v := (subOp_value 0 v).trans (BitVec.zero_sub v)
  have borrow : (subOp 0 v false).carry = decide (v ≠ 0) := by
    rw [subOp_carry, decide_eq_decide, ne_eq, ← BitVec.toNat_inj]
    simp
    omega
  have zero : ((subOp 0 v false).value == 0) = decide (v = 0) := by
    rw [value, beq_eq_decide, decide_eq_decide, neg_eq_zero]
  rw [← arith_subOp hn]
  refine Prod.ext value ?_
  change k.negate cfg (subOp 0 v false) = _
  rw [Fcw.negate, borrow, zero]
  rfl

end

theorem bits_pos (z : Size) : 0 < z.bits := by cases z <;> decide

/-! ### The shapes of instructions -/

section
variable {z : Size} {f g : Binary z} {mk : Reg → Src z → Instr} {mkDst : Dst → Instr}

theorem binary_answers (computes : ∀ a b k, g a b k = f a b k) (d : Reg) (src : Src z) (s : State)
    (hd : regFits z d = true) (hs : s.srcReady z src = true) :
    Answers (answer (binary z d src g s))
      ((s.setReg z d (f (s.reg z d) (s.srcValue z src) s.fcw).1).setFcw (f (s.reg z d) (s.srcValue z src) s.fcw).2) := by
  obtain ⟨bus, trace, e⟩ := binary_spec z d src g s hd hs
  rw [computes] at e
  exact ⟨bus, trace, congrArg answer e⟩

/-- An instruction on a source and a register, by the value and flags it computes. -/
theorem ComputesReg.of_binary (run : ∀ d src s, exec (mk d src) s = answer (binary z d src g s))
    (computes : ∀ a b k, g a b k = f a b k) : ComputesReg z mk f := fun d src s hd hs => by
  rw [run]
  exact binary_answers computes d src s hd hs

/-- An instruction that compares a register with a source sets the flags of the difference alone. -/
theorem ComputesFlags.of_compare (run : ∀ d src s, exec (mk d src) s = answer (compare z d src compareFlags s)) :
    ComputesFlags z mk compareOf := fun d src s hd hs => by
  obtain ⟨bus, trace, e⟩ := compare_spec z d src compareFlags s hd hs
  rw [compareFlags_eq (bits_pos z)] at e
  exact ⟨bus, trace, (run d src s).trans (congrArg answer e)⟩

/-- A compare with an operand in memory, which is the minuend (R304). -/
theorem inspect_compareFlags_answers {m : Mem} {s : State} (h : s.memReady z m = true) (v : BitVec z.bits) :
    Answers (answer (inspect z (.mem m) (fun a k => compareFlags a v k) s))
      (s.setFcw (compareOf (s.dstValue z (.mem m)) v s.fcw)) := by
  obtain ⟨bus, trace, e⟩ := inspect_spec z (.mem m) (fun a k => compareFlags a v k) s h
  rw [compareFlags_eq (bits_pos z)] at e
  exact ⟨bus, trace, congrArg answer e⟩

/-- An instruction on one operand, by the value and flags it computes. -/
theorem ComputesDst.of_modify {f g : State → Unary z} (run : ∀ d s, exec (mkDst d) s = answer (modify z d (g s) s))
    (computes : ∀ s v k, g s v k = f s v k) : ComputesDst z mkDst f := fun d s h => by
  obtain ⟨bus, trace, e⟩ := modify_spec z d (g s) s h
  rw [computes] at e
  exact ⟨bus, trace, (run d s).trans (congrArg answer e)⟩

end

/-! ### The obligations -/

/-- Settles O33: ADC and SBC have register operands alone, which a word or byte register always is. -/
theorem addAndSubtract : Obligations.AddAndSubtract := by
  refine ⟨⟨.of_binary (fun _ _ _ => rfl) (addWith_eq (by decide) false),
      .of_binary (fun _ _ _ => rfl) (addByteWith_eq false),
      .of_binary (fun _ _ _ => rfl) (addWith_eq (by decide) false), fun d c s => ⟨?_, ?_⟩⟩,
    .of_binary (fun _ _ _ => rfl) (subWith_eq (by decide) false),
    .of_binary (fun _ _ _ => rfl) (subByteWith_eq false),
    .of_binary (fun _ _ _ => rfl) (subWith_eq (by decide) false), fun d c s => ⟨?_, ?_⟩⟩
  · exact (binary_answers (z := .w) (addWith_eq (by decide) true) d (.reg c) s rfl rfl :)
  · exact (binary_answers (z := .b) (addByteWith_eq true) d (.reg c) s rfl rfl :)
  · exact (binary_answers (z := .w) (subWith_eq (by decide) true) d (.reg c) s rfl rfl :)
  · exact (binary_answers (z := .b) (subByteWith_eq true) d (.reg c) s rfl rfl :)

/-- Settles O34: a byte operand in memory can always be read (R86). -/
theorem compareResult : Obligations.CompareResult :=
  ⟨.of_compare fun _ _ _ => rfl, .of_compare fun _ _ _ => rfl, .of_compare fun _ _ _ => rfl,
    fun _ v _ h => inspect_compareFlags_answers (z := .w) h v,
    fun _ v _ => inspect_compareFlags_answers (z := .b) rfl v⟩

/-- Settles O35. -/
theorem stepAndNegate : Obligations.StepAndNegate := by
  refine ⟨fun n => ?_, .of_modify (g := fun s => negate s.cfg) (fun _ _ => rfl) fun s => negate_eq (by decide) s.cfg,
    .of_modify (g := fun s => negate s.cfg) (fun _ _ => rfl) fun s => negate_eq (by decide) s.cfg⟩
  rw [← amount_eq, ← amount_eq]
  exact ⟨.of_modify (g := fun _ => incBy n) (fun _ _ => rfl) fun _ => incBy_eq (by decide) n,
    .of_modify (g := fun _ => incBy n) (fun _ _ => rfl) fun _ => incBy_eq (by decide) n,
    .of_modify (g := fun _ => decBy n) (fun _ _ => rfl) fun _ => decBy_eq (by decide) n,
    .of_modify (g := fun _ => decBy n) (fun _ _ => rfl) fun _ => decBy_eq (by decide) n⟩

end Sys2Proof.Machine
end

section
/-! Multiplication, division and the sign extensions (R307, R308, R310): registers in pairs and quadruples, whose lower
half is an operand, and the cases of a division. -/

namespace Sys2Proof.Machine

section
variable {d : Reg} {s : State}

/-! ### Halves of pairs and quadruples (R13, R23) -/

theorem reg_ne_next (c : Reg) : c + 1 ≠ c := by bv_omega

/-- The word registers of the upper pair of a quadruple are not those of the lower one. -/
theorem reg_ne_second_pair (c : Reg) : c + 2 ≠ c ∧ c + 2 ≠ c + 1 ∧ c + 2 + 1 ≠ c ∧ c + 2 + 1 ≠ c + 1 := by
  refine ⟨?_, ?_, ?_, ?_⟩ <;> bv_omega

theorem State.setLong_append (s : State) (c : Reg) (hi lo : Word) :
    s.setLong c (hi ++ lo) = (s.setWord c hi).setWord (c + 1) lo := by
  rw [State.setLong, BitVec.extractLsb'_append_eq_left, BitVec.extractLsb'_append_eq_right]

theorem State.setQuad_append (s : State) (c : Reg) (hi lo : Long) :
    s.setQuad c (hi ++ lo) = (s.setLong c hi).setLong (c + 2) lo := by
  rw [State.setQuad, BitVec.extractLsb'_append_eq_left, BitVec.extractLsb'_append_eq_right]

/-- The lower word written as it stands. -/
theorem State.setLong_append_word (s : State) (c : Reg) (hi : Word) :
    s.setLong c (hi ++ s.word (c + 1)) = s.setWord c hi := by
  rw [State.setLong_append, ← State.word_setWord_ne s hi (reg_ne_next c), State.setWord_word]

theorem State.setLong_long (s : State) (c : Reg) : s.setLong c (s.long c) = s := by
  rw [State.long, State.setLong_append_word, State.setWord_word]

/-- The lower pair is not touched by a write of the upper one. -/
theorem State.long_setLong_second (s : State) (c : Reg) (v : Long) : (s.setLong c v).long (c + 2) = s.long (c + 2) := by
  obtain ⟨h₁, h₂, h₃, h₄⟩ := reg_ne_second_pair c
  simp only [State.long, State.setLong, State.word_setWord_ne _ _ h₁, State.word_setWord_ne _ _ h₂,
    State.word_setWord_ne _ _ h₃, State.word_setWord_ne _ _ h₄]

/-- The lower pair written as it stands. -/
theorem State.setQuad_append_long (s : State) (c : Reg) (hi : Long) :
    s.setQuad c (hi ++ s.long (c + 2)) = s.setLong c hi := by
  rw [State.setQuad_append, ← State.long_setLong_second s c hi, State.setLong_long]

theorem State.setQuad_quad (s : State) (c : Reg) : s.setQuad c (s.quad c) = s := by
  rw [State.quad, State.setQuad_append_long, State.setLong_long]

theorem State.setLong_with_bus (s : State) (c : Reg) (v : Long) (bus : List BusEvent) (trace : Option (List Point)) :
    State.setLong { s with bus := bus, trace := trace } c v = { s.setLong c v with bus := bus, trace := trace } :=
  State.setReg_bus .l ..

theorem State.setQuad_with_bus (s : State) (c : Reg) (v : Quad) (bus : List BusEvent) (trace : Option (List Point)) :
    State.setQuad { s with bus := bus, trace := trace } c v = { s.setQuad c v with bus := bus, trace := trace } := by
  simp only [State.setQuad, State.setLong_with_bus]

/-! ### Sign extension (R308) -/

theorem signByte_append (b : Byte) : signByte b.msb ++ b = b.signExtend 16 := by
  rw [BitVec.signExtend_eq_append_of_le (by decide), signByte]
  rfl

theorem signWord_append (w : Word) : signWord w.msb ++ w = w.signExtend 32 := by
  rw [BitVec.signExtend_eq_append_of_le (by decide), signWord]
  rfl

theorem signLong_append (v : Long) : signLong v.msb ++ v = v.signExtend 64 := by
  rw [BitVec.signExtend_eq_append_of_le (by decide), signLong]
  rfl

/-- The sign of the low byte is bit 7 of the word. -/
theorem loByte_msb (w : Word) : (loByte w).msb = w.getLsbD 7 := by
  simp [BitVec.msb_eq_getLsbD_last, loByte]

theorem extsb_answers (d : Reg) (s : State) :
    Answers (exec (.extsb d) s) (s.setWord d ((loByte (s.word d)).signExtend 16)) := by
  rw [← signByte_append, loByte_msb]
  exact Answers.next _

theorem exts_answers (hd : pairOk d = true) (s : State) :
    Answers (exec (.exts d) s) (s.setLong d ((s.word (d + 1)).signExtend 32)) := by
  rw [← signWord_append, State.setLong_append_word, exec, execExts, require_goesOn hd]
  exact Answers.next _

theorem extsl_answers (hd : quadOk d = true) (s : State) :
    Answers (exec (.extsl d) s) (s.setQuad d ((s.long (d + 2)).signExtend 64)) := by
  rw [← signLong_append, State.setQuad_append_long, exec, execExtsl, require_goesOn hd]
  exact Answers.next _

/-! ### The shape of a multiplication or division: two checks, a source, and intermediate results (log entry 23) -/

theorem checked_read_then {z : Size} {src : Src z} {b b' : Bool} {r r' : Refusal} {t : State}
    {f : BitVec z.bits × State → Comp State} (hb : b = true) (hb' : b' = true) (hs : s.srcReady z src = true)
    (next : ∀ bus trace, Answers (answer (f (s.srcValue z src, { s with bus := bus, trace := trace }))) t) :
    Answers (answer (require b r >>= fun _ => require b' r' >>= fun _ => readSrc z src s >>= f)) t := by
  rw [require_goesOn hb, require_goesOn hb']
  exact read_then (readSrc_spec z src s hs) next

/-- Intermediate results are points alone. -/
theorem State.intermediate_with_bus (cs : List Reg) (s : State) (bus : List BusEvent) (trace : Option (List Point)) :
    ∃ trace', State.intermediate cs { s with bus := bus, trace := trace } =
      { s with bus := bus, trace := trace' } := ⟨_, rfl⟩

theorem State.dividing_with_bus (cs : List Reg) (r : Division) (s : State) (bus : List BusEvent)
    (trace : Option (List Point)) :
    ∃ trace', State.dividing cs r { s with bus := bus, trace := trace } =
      { s with bus := bus, trace := trace' } := by
  cases r <;> exact ⟨_, rfl⟩

/-! ### Multiplication (R310) -/

theorem product_eq (k : Fcw) (w : Nat) (p : Int) : k.product w p =
    { k with c := !fits w p, z := decide (p = 0), s := decide (p < 0), v := false } := by
  simp only [Fcw.product, fits, Int.le_sub_one_iff]

/-- Settles O36: the product and its flags as the model computes them, and the sign extensions. -/
theorem multiplyAndExtend : Obligations.MultiplyAndExtend := by
  refine ⟨fun d src s hd ho hs => ?_, fun d src s hd ho hs => ?_,
    fun d s => ⟨extsb_answers d s, fun hd => exts_answers hd s, fun hd => extsl_answers hd s⟩⟩
  · dsimp only
    rw [← product_eq]
    refine checked_read_then hd ho hs fun bus trace => ?_
    obtain ⟨trace', e⟩ := State.intermediate_with_bus ([d, d + 1] ++ srcWords .w src) s bus trace
    dsimp only
    rw [e, State.setLong_with_bus]
    exact ⟨bus, trace', rfl⟩
  · dsimp only
    rw [← product_eq]
    refine checked_read_then hd ho hs fun bus trace => ?_
    obtain ⟨trace', e⟩ := State.intermediate_with_bus ([d, d + 1, d + 2, d + 3] ++ srcWords .l src) s bus trace
    dsimp only
    rw [e, State.setQuad_with_bus]
    exact ⟨bus, trace', rfl⟩

/-! ### Division (R307) -/

/-- The quotient by the parameter: truncated, or rounded down for a remainder with the sign of the divisor (log entry
35). -/
def quotient (sign : RemSign) (a b : Int) : Int :=
  match sign with
  | .dividend => a.tdiv b
  | .divisor => a.fdiv b

/-- The remainder of a truncated quotient has the sign of the dividend. -/
theorem remainderOk_tmod {a b : Int} (hb : b ≠ 0) : remainderOk .dividend a b (a.tmod b) := by
  refine ⟨?_, fun hr => ?_⟩
  · rw [Int.natAbs_tmod]
    exact Nat.mod_lt _ (Int.natAbs_pos.2 hb)
  · dsimp only
    rcases lt_trichotomy a 0 with neg | rfl | pos
    · have := Int.tmod_nonneg b (Int.neg_nonneg_of_nonpos neg.le)
      rw [Int.neg_tmod] at this
      omega
    · exact absurd (Int.zero_tmod b) hr
    · have := Int.tmod_nonneg b pos.le
      omega

/-- The remainder of a quotient rounded down has the sign of the divisor. -/
theorem remainderOk_fmod {a b : Int} (hb : b ≠ 0) : remainderOk .divisor a b (a.fmod b) := by
  unfold remainderOk
  dsimp only
  rcases lt_or_gt_of_ne hb with neg | pos
  · have flip := Int.neg_fmod_neg a b
    have nonneg := Int.fmod_nonneg_of_pos (-a) (b := -b) (by omega)
    have small := Int.fmod_lt_of_pos (-a) (b := -b) (by omega)
    omega
  · have nonneg := Int.fmod_nonneg_of_pos a pos
    have small := Int.fmod_lt_of_pos a pos
    omega

theorem remainderOk_quotient (sign : RemSign) {a b : Int} (hb : b ≠ 0) :
    remainderOk sign a b (a - quotient sign a b * b) := by
  rw [mul_comm]
  cases sign with
  | dividend => exact Int.tmod_def a b ▸ remainderOk_tmod hb
  | divisor => exact Int.fmod_def a b ▸ remainderOk_fmod hb

/-- Which case of R307 the size of the quotient makes. -/
theorem divide_eq (sign : RemSign) (w : Nat) {a b : Int} (hb : b ≠ 0) : divide sign w a b =
    if fits w (quotient sign a b) = true then .fits (quotient sign a b) (a - quotient sign a b * b)
    else if (quotient sign a b).natAbs < 2 ^ w then .extended (quotient sign a b) (a - quotient sign a b * b)
    else .overflow := by
  have wide (q : Int) : (-(2 ^ w - 1) ≤ q ∧ q ≤ 2 ^ w - 1) ↔ q.natAbs < 2 ^ w := by
    zify
    rw [abs_lt]
    omega
  simp only [fits_iff, ← wide, ← Int.le_sub_one_iff]
  rw [divide.eq_def, if_neg hb]
  rfl

/-- A quotient of `w` bits has a magnitude of at most `w` bits. -/
theorem natAbs_lt_of_fits {w : Nat} {q : Int} (hw : 0 < w) (h : fits w q = true) : q.natAbs < 2 ^ w := by
  have pow := two_pow_eq_two_mul hw
  have pos : (0 : Int) < 2 ^ (w - 1) := by positivity
  obtain ⟨lo, hi⟩ := fits_iff.1 h
  zify
  rw [abs_lt]
  omega

/-- An instruction that answers by the case of a division, told by the quotient. -/
theorem division_cases {o : Host.Outcome State Fault Refusal} {sign : RemSign} {w : Nat} {a b : Int}
    {after : Division → State} (hw : 0 < w) (h : Answers o (after (divide sign w a b))) :
    (b = 0 → Answers o (after .byZero)) ∧
    (b ≠ 0 → ∃ q r : Int, a = q * b + r ∧ remainderOk sign a b r ∧
      (fits w q = true → Answers o (after (.fits q r))) ∧
      (fits w q = false → q.natAbs < 2 ^ w → Answers o (after (.extended q r))) ∧
      (2 ^ w ≤ q.natAbs → Answers o (after .overflow))) := by
  refine ⟨fun hb => ?_, fun hb => ⟨quotient sign a b, a - quotient sign a b * b, by omega,
    remainderOk_quotient sign hb, fun hq => ?_, fun hq small => ?_, fun large => ?_⟩⟩
  · rwa [divide.eq_def, if_pos hb] at h
  · rwa [divide_eq sign w hb, if_pos hq] at h
  · rwa [divide_eq sign w hb, if_neg (Bool.eq_false_iff.1 hq), if_pos small] at h
  · rwa [divide_eq sign w hb, if_neg fun hq => absurd (natAbs_lt_of_fits hw hq) (Nat.not_lt.2 large),
      if_neg (Nat.not_lt.2 large)] at h

/-- What DIV leaves after each case. -/
def State.divided (d : Reg) (r : Division) (s : State) : State :=
  ((s.setLong d (divDest s.freeCount (s.long d) r)).setFcw (s.fcw.division r)).bumpFree

/-- What DIVL leaves after each case. -/
def State.dividedLong (d : Reg) (r : Division) (s : State) : State :=
  ((s.setQuad d (divlDest s.freeCount (s.quad d) r)).setFcw (s.fcw.division r)).bumpFree

theorem divided_answers (d : Reg) (cs : List Reg) (r : Division) (s : State) (bus : List BusEvent)
    (trace : Option (List Point)) :
    Answers (.next ((State.dividing cs r { s with bus := bus, trace := trace }).divided d r)) (s.divided d r) := by
  obtain ⟨trace', e⟩ := State.dividing_with_bus cs r s bus trace
  rw [e, State.divided, State.setLong_with_bus]
  exact ⟨bus, trace', rfl⟩

theorem dividedLong_answers (d : Reg) (cs : List Reg) (r : Division) (s : State) (bus : List BusEvent)
    (trace : Option (List Point)) :
    Answers (.next ((State.dividing cs r { s with bus := bus, trace := trace }).dividedLong d r))
      (s.dividedLong d r) := by
  obtain ⟨trace', e⟩ := State.dividing_with_bus cs r s bus trace
  rw [e, State.dividedLong, State.setQuad_with_bus]
  exact ⟨bus, trace', rfl⟩

theorem div_answers {src : Src .w} (hd : pairOk d = true) (ho : srcOutsidePair d src = true)
    (hs : s.srcReady .w src = true) : Answers (exec (.div d src) s)
      (s.divided d (divide s.cfg.divRemSign 16 (s.long d).toInt (s.srcValue .w src).toInt)) :=
  checked_read_then hd ho hs fun bus trace => divided_answers d ([d, d + 1] ++ srcWords .w src) _ s bus trace

theorem divl_answers {src : Src .l} (hd : quadOk d = true) (ho : srcOutsideQuad d src = true)
    (hs : s.srcReady .l src = true) : Answers (exec (.divl d src) s)
      (s.dividedLong d (divide s.cfg.divRemSign 32 (s.quad d).toInt (s.srcValue .l src).toInt)) :=
  checked_read_then hd ho hs fun bus trace =>
    dividedLong_answers d ([d, d + 1, d + 2, d + 3] ++ srcWords .l src) _ s bus trace

/-- Settles O37: each case as the model writes it; after a zero divisor the destination is written as it stands. -/
theorem divResult : Obligations.DivResult := by
  refine ⟨fun d src s hd ho hs => ?_, fun d src s hd ho hs => ?_⟩
  · obtain ⟨byZero, cases⟩ := division_cases (after := fun r => s.divided d r) (by decide) (div_answers hd ho hs)
    refine ⟨fun hb => ?_, fun hb => ?_⟩
    · have e := byZero hb
      rwa [State.divided, divDest, State.setLong_long] at e
    · obtain ⟨q, r, ha, hr, fit, extended, overflow⟩ := cases hb
      exact ⟨q, r, ha, hr, fit, extended, fun large => ⟨_, overflow large⟩⟩
  · obtain ⟨byZero, cases⟩ := division_cases (after := fun r => s.dividedLong d r) (by decide) (divl_answers hd ho hs)
    refine ⟨fun hb => ?_, fun hb => ?_⟩
    · have e := byZero hb
      rwa [State.dividedLong, divlDest, State.setQuad_quad] at e
    · obtain ⟨q, r, ha, hr, fit, extended, overflow⟩ := cases hb
      exact ⟨q, r, ha, hr, fit, extended, fun large => ⟨_, overflow large⟩⟩

end

end Sys2Proof.Machine
end

section
/-! Decimal adjust (R305): the rows of its table, of which no two cover one byte, and decimal arithmetic, where the sums
or differences of the digits choose the row. -/

namespace Sys2Proof.Machine

/-! ### The table of R305 -/

/-- The rows differ in a flag, or in the digits they cover. -/
def DabRow.apart (v w : DabRow) : Prop :=
  v.d ≠ w.d ∨ v.c ≠ w.c ∨ v.h ≠ w.h ∨ v.hiTo < w.hiFrom ∨ w.hiTo < v.hiFrom ∨ v.loTo < w.loFrom ∨ w.loTo < v.loFrom

theorem DabRow.covers_iff {w : DabRow} {v : Byte} {k : Fcw} : w.covers v k = true ↔
    w.d = k.d ∧ w.c = k.c ∧ w.h = k.h ∧ (w.hiFrom ≤ v.toNat / 16 ∧ v.toNat / 16 ≤ w.hiTo) ∧
      (w.loFrom ≤ v.toNat % 16 ∧ v.toNat % 16 ≤ w.loTo) := by
  simp [DabRow.covers, and_assoc]

theorem DabRow.not_apart_of_covers {x y : DabRow} {v : Byte} {k : Fcw} (hx : x.covers v k = true)
    (hy : y.covers v k = true) : ¬x.apart y := by
  obtain ⟨dx, cx, hx, hix, lox⟩ := DabRow.covers_iff.1 hx
  obtain ⟨dy, cy, hy, hiy, loy⟩ := DabRow.covers_iff.1 hy
  simp only [DabRow.apart, dx, cx, hx, dy, cy, hy, ne_eq, not_true_eq_false, false_or]
  omega

theorem dabTable_apart : ∀ x ∈ dabTable, ∀ y ∈ dabTable, x = y ∨ x.apart y := by
  unfold DabRow.apart
  decide

/-- The row that covers a byte is the one DAB goes by. -/
theorem dabRow_eq {w : DabRow} {v : Byte} {k : Fcw} (hw : w ∈ dabTable) (h : w.covers v k = true) :
    dabRow v k = some w := by
  cases found : dabRow v k with
  | none => exact absurd h (List.find?_eq_none.1 found w hw)
  | some x =>
    have hx : x.covers v k = true := List.find?_some (p := fun w : DabRow => w.covers v k) found
    have same := dabTable_apart x (List.mem_of_find?_eq_some found) w hw
    rw [same.resolve_right (DabRow.not_apart_of_covers hx h)]

theorem decimalAdjust_of_covers {w : DabRow} {v : Byte} {k : Fcw} (hw : w ∈ dabTable) (h : w.covers v k = true)
    (free : Nat) :
    decimalAdjust free v k = (v + w.add, { resultFlags (v + w.add) k with c := w.cAfter }) := by
  rw [decimalAdjust, dabRow_eq hw h, ← Fcw.zs_eq_resultFlags]

theorem decimalAdjust_flags (free : Nat) (v : Byte) (k : Fcw) :
    ∃ c z g, (decimalAdjust free v k).2 = { k with c := c, z := z, s := g } := by
  unfold decimalAdjust
  split
  · exact ⟨_, _, _, rfl⟩
  · exact ⟨_, _, _, rfl⟩

/-- Settles O38. -/
theorem dabFollowsTable : Obligations.DabFollowsTable := by
  intro d s
  refine ⟨?_, fun w hw h => ?_⟩
  · obtain ⟨c, z, g, e⟩ := decimalAdjust_flags s.freeCount (s.byte d) s.fcw
    refine ⟨(decimalAdjust s.freeCount (s.byte d) s.fcw).1, c, z, g, ?_⟩
    rw [← e]
    exact Answers.next _
  · have run : exec (.dab d) s = .next (((s.setByte d (decimalAdjust s.freeCount (s.byte d) s.fcw).1).setFcw
        (decimalAdjust s.freeCount (s.byte d) s.fcw).2).bumpFree) := rfl
    rw [run, decimalAdjust_of_covers hw h]
    exact Answers.next _

/-! ### Decimal arithmetic (R301, R305, R312) -/

/-- The row covers a byte of value `t` after an operation that left these flags, and takes it to `n` with the carry. -/
def DabRow.Corrects (w : DabRow) (k : Fcw) (t n : Nat) (carry : Bool) : Prop :=
  (w.d = k.d ∧ w.c = k.c ∧ w.h = k.h) ∧ (w.hiFrom ≤ t / 16 ∧ t / 16 ≤ w.hiTo) ∧
    (w.loFrom ≤ t % 16 ∧ t % 16 ≤ w.loTo) ∧ (t + w.add.toNat) % 256 = n ∧ w.cAfter = carry

/-- Two decimal digits as a byte. -/
def decimalByte (n : Nat) : Nat := n % 100 / 10 * 16 + n % 10

theorem decimalByte_eq {a b : Nat} (hb : b < 10) : decimalByte (10 * a + b) = a % 10 * 16 + b := by
  unfold decimalByte
  omega

/-- After an addition: `u` is the sum of the upper digits, `l` that of the lower digits and the carry. Whether `l` passes
9 or 15 and whether the upper digit then does choose among the nine rows. -/
theorem addition_row {u l : Nat} {k : Fcw} (hu : u ≤ 18) (hl : l ≤ 19) (hd : k.d = false)
    (hc : k.c = decide (256 ≤ 16 * u + l)) (hh : k.h = decide (16 ≤ l)) :
    ∃ w ∈ dabTable, w.Corrects k ((16 * u + l) % 256) (decimalByte (10 * u + l)) (decide (100 ≤ 10 * u + l)) := by
  unfold DabRow.Corrects
  simp only [hd, hc, hh]
  rcases lt_or_ge l 10 with low | low
  · rw [decimalByte_eq low]
    rcases lt_or_ge u 10 with up | up
    · exact ⟨dabTable[0], List.getElem_mem _, by simp [dabTable]; omega⟩
    rcases lt_or_ge u 16 with up' | up'
    · exact ⟨dabTable[3], List.getElem_mem _, by simp [dabTable]; omega⟩
    · exact ⟨dabTable[6], List.getElem_mem _, by simp [dabTable]; omega⟩
  rw [show 10 * u + l = 10 * (u + 1) + (l - 10) by omega, decimalByte_eq (by omega)]
  rcases lt_or_ge l 16 with half | half
  · rcases lt_or_ge u 9 with up | up
    · exact ⟨dabTable[1], List.getElem_mem _, by simp [dabTable]; omega⟩
    rcases lt_or_ge u 16 with up' | up'
    · exact ⟨dabTable[4], List.getElem_mem _, by simp [dabTable]; omega⟩
    · exact ⟨dabTable[7], List.getElem_mem _, by simp [dabTable]; omega⟩
  · rcases lt_or_ge u 9 with up | up
    · exact ⟨dabTable[2], List.getElem_mem _, by simp [dabTable]; omega⟩
    rcases lt_or_ge u 15 with up' | up'
    · exact ⟨dabTable[5], List.getElem_mem _, by simp [dabTable]; omega⟩
    · exact ⟨dabTable[8], List.getElem_mem _, by simp [dabTable]; omega⟩

/-- After a subtraction: 9 is added to the difference of the upper digits and 10 to that of the lower digits and the
borrow, so that both are natural numbers. A borrow out of either chooses among the four rows. -/
theorem subtraction_row {u l : Nat} {k : Fcw} (hu : u ≤ 18) (hl : l ≤ 19) (hd : k.d = true)
    (hc : k.c = decide (16 * u + l < 154)) (hh : k.h = decide (l < 10)) :
    ∃ w ∈ dabTable, w.Corrects k ((16 * u + l + 102) % 256) (decimalByte (10 * u + l)) (decide (10 * u + l < 100)) := by
  unfold DabRow.Corrects
  simp only [hd, hc, hh]
  rcases lt_or_ge l 10 with low | low
  · rw [decimalByte_eq low]
    rcases lt_or_ge u 10 with up | up
    · exact ⟨dabTable[12], List.getElem_mem _, by simp [dabTable]; omega⟩
    · exact ⟨dabTable[10], List.getElem_mem _, by simp [dabTable]; omega⟩
  · rw [show 10 * u + l = 10 * (u + 1) + (l - 10) by omega, decimalByte_eq (by omega)]
    rcases lt_or_ge u 9 with up | up
    · exact ⟨dabTable[11], List.getElem_mem _, by simp [dabTable]; omega⟩
    · exact ⟨dabTable[9], List.getElem_mem _, by simp [dabTable]; omega⟩

theorem DabRow.Corrects.covers {w : DabRow} {k : Fcw} {v : Byte} {n : Nat} {carry : Bool}
    (h : w.Corrects k v.toNat n carry) : w.covers v k = true :=
  let ⟨⟨hd, hc, hh⟩, hi, lo, _⟩ := h
  DabRow.covers_iff.2 ⟨hd, hc, hh, hi, lo⟩

theorem DabRow.Corrects.value {w : DabRow} {k : Fcw} {v : Byte} {n : Nat} {carry : Bool}
    (h : w.Corrects k v.toNat n carry) : v + w.add = BitVec.ofNat 8 n := by
  obtain ⟨-, -, -, e, -⟩ := h
  apply BitVec.eq_of_toNat_eq
  rw [BitVec.toNat_add, BitVec.toNat_ofNat, ← e]
  omega

/-- The flags are not part of a byte register, in either mode (R21). -/
theorem State.byte_setFcw (s : State) (k : Fcw) (c : Reg) : (s.setFcw k).byte c = s.byte c :=
  State.byte_congr (State.setFcw_regs s k) c

/-- What is answered holds the registers and flags that are claimed. -/
theorem Answers.registers {o : Host.Outcome State Fault Refusal} {s : State} (h : Answers o s) :
    ∃ t, o = .next t ∧ (∀ d, t.byte d = s.byte d) ∧ t.fcw = s.fcw := by
  obtain ⟨bus, trace, e⟩ := h
  exact ⟨_, e, fun _ => rfl, rfl⟩

/-- DAB after an operation that left the byte `v` and the flags `k`, by the row that covers them. -/
theorem dab_after {o : Host.Outcome State Fault Refusal} {d : Reg} {s : State} {v : Byte} {k : Fcw} {n : Nat}
    {carry : Bool} (h : Answers o ((s.setByte d v).setFcw k)) (row : ∃ w ∈ dabTable, w.Corrects k v.toNat n carry) :
    ∃ t u, o = .next t ∧ exec (.dab d) t = .next u ∧ u.byte d = BitVec.ofNat 8 n ∧ u.fcw.c = carry := by
  obtain ⟨w, hw, corrects⟩ := row
  obtain ⟨t, first, byte, fcw⟩ := h.registers
  have hv : t.byte d = v := by rw [byte, State.byte_setFcw, State.byte_setByte_self]
  have covers : w.covers (t.byte d) t.fcw = true := by rw [hv, fcw]; exact corrects.covers
  obtain ⟨u, second, byte', fcw'⟩ := ((dabFollowsTable d t).2 w hw covers).registers
  refine ⟨t, u, first, second, ?_, ?_⟩
  · rw [byte', State.bumpFree_byte, State.byte_setFcw, State.byte_setByte_self, hv, corrects.value]
  · obtain ⟨-, -, -, -, after⟩ := corrects
    rw [fcw', State.bumpFree_fcw, State.setFcw_fcw, after]

/-- The value of a decimal byte. -/
theorem toNat_ofNat_digits {x : Nat} (h : x < 100) :
    (BitVec.ofNat 8 (x / 10 * 16 + x % 10)).toNat = x / 10 * 16 + x % 10 := by
  rw [BitVec.toNat_ofNat]
  omega

theorem sumOf_toNat (a b : Byte) (c : Bool) (k : Fcw) :
    (sumOf a b c k).1.toNat = (a.toNat + b.toNat + c.toNat) % 256 := by
  simp [sumOf, BitVec.toNat_add]

theorem differenceOf_toNat (a b : Byte) (c : Bool) (k : Fcw) :
    (differenceOf a b c k).1.toNat = (256 + a.toNat - b.toNat + (256 - c.toNat)) % 256 := by
  have := c.toNat_le
  simp [differenceOf, BitVec.toNat_sub]
  omega

section
variable {x y : Nat} {a b : Byte} (hx : x < 100) (hy : y < 100) (ha : a.toNat = x / 10 * 16 + x % 10)
  (hb : b.toNat = y / 10 * 16 + y % 10) (c : Bool) (k : Fcw)
include hx hy ha hb

/-- A row takes the sum of two decimal bytes, with the flags of ADCB, to the decimal sum. -/
theorem sum_corrects : ∃ w ∈ dabTable, w.Corrects (sumDigits a b c (sumOf a b c k).2) (sumOf a b c k).1.toNat
    (decimalByte (x + y + c.toNat)) (decide (100 ≤ x + y + c.toNat)) := by
  have hc := c.toNat_le
  obtain ⟨u, hu⟩ : ∃ u, u = x / 10 + y / 10 := ⟨_, rfl⟩
  obtain ⟨l, hl⟩ : ∃ l, l = x % 10 + y % 10 + c.toNat := ⟨_, rfl⟩
  have decimal : x + y + c.toNat = 10 * u + l := by omega
  have binary : a.toNat + b.toNat + c.toNat = 16 * u + l := by omega
  rw [sumOf_toNat, decimal, binary]
  refine addition_row (by omega) (by omega) rfl ?_ ?_
  · rw [← binary]
    rfl
  · change decide (16 ≤ a.toNat % 16 + b.toNat % 16 + c.toNat) = _
    rw [decide_eq_decide]
    omega

/-- A row takes the difference of two decimal bytes, with the flags of SBCB, to the decimal difference. -/
theorem difference_corrects : ∃ w ∈ dabTable,
    w.Corrects (differenceDigits a b c (differenceOf a b c k).2) (differenceOf a b c k).1.toNat
      (decimalByte (100 + x - y - c.toNat)) (decide (x < y + c.toNat)) := by
  have hc := c.toNat_le
  obtain ⟨u, hu⟩ : ∃ u, u = 9 + x / 10 - y / 10 := ⟨_, rfl⟩
  obtain ⟨l, hl⟩ : ∃ l, l = 10 + x % 10 - y % 10 - c.toNat := ⟨_, rfl⟩
  have decimal : 100 + x - y - c.toNat = 10 * u + l := by omega
  have binary : 256 + a.toNat - b.toNat + (256 - c.toNat) = 16 * u + l + 358 := by omega
  have value : (16 * u + l + 358) % 256 = (16 * u + l + 102) % 256 := by omega
  have less : (x < y + c.toNat) ↔ 10 * u + l < 100 := by omega
  rw [differenceOf_toNat, decimal, binary, value, decide_eq_decide.2 less]
  refine subtraction_row (by omega) (by omega) rfl ?_ ?_
  · change decide (a.toNat < b.toNat + c.toNat) = _
    rw [decide_eq_decide]
    omega
  · change decide (a.toNat % 16 < b.toNat % 16 + c.toNat) = _
    rw [decide_eq_decide]
    omega

end

/-- Settles O39: after either operation a row of the table covers the binary result and takes it to the decimal one. -/
theorem decimalArithmetic : Obligations.DecimalArithmetic := by
  intro d c x y s hx hy hd hc
  have ha : (s.byte d).toNat = x / 10 * 16 + x % 10 := hd ▸ toNat_ofNat_digits hx
  have hb : (s.byte c).toNat = y / 10 * 16 + y % 10 := hc ▸ toNat_ofNat_digits hy
  obtain ⟨⟨-, -, -, adc⟩, -, -, -, sbc⟩ := addAndSubtract
  exact ⟨dab_after (adc d c s).2 (sum_corrects hx hy ha hb s.fcw.c s.fcw),
    dab_after (sbc d c s).2 (difference_corrects hx hy ha hb s.fcw.c s.fcw)⟩

end Sys2Proof.Machine
end

section
/-! Logical and bit instructions (R400 to R406, R410 to R415, R480). The model's parity is the exclusive or of the bits of
a byte; here it says whether their number is even. -/

namespace Sys2Proof

namespace Machine

/-- A register write leaves the flags. -/
theorem State.setReg_fcw (z : Size) (c : Reg) (v : BitVec z.bits) (s : State) : (s.setReg z c v).fcw = s.fcw := by
  cases z with
  | b => exact s.setByte_fcw c v
  | w => exact s.setWord_fcw c v
  | l => exact s.setLong_fcw c v

/-! ### Flags of a logical result (R400) -/

/-- An exclusive or of bits tells whether an odd number of them is set. -/
theorem foldl_xor_eq_odd (f : Nat → Bool) (l : List Nat) (c : Bool) :
    l.foldl (fun c i => c ^^ f i) c = (c ^^ decide ((l.filter f).length % 2 = 1)) := by
  induction l generalizing c with
  | nil => simp
  | cons i l ih =>
    rw [List.foldl_cons, ih]
    cases hi : f i with
    | false => simp [hi]
    | true =>
      have flip : ((l.filter f).length + 1) % 2 = 1 ↔ ¬(l.filter f).length % 2 = 1 := by omega
      rw [List.filter_cons_of_pos hi, List.length_cons, decide_eq_decide.2 flip, decide_not, Bool.xor_assoc,
        Bool.true_xor]

theorem parityEven_eq (b : Byte) : parityEven b = decide (ones b % 2 = 0) := by
  have bits : parityEven b = !(List.range 8).foldl (fun c i => c ^^ b.getLsbD i) false := by
    simp [parityEven, List.range_succ]
  have even : ones b % 2 = 0 ↔ ¬ones b % 2 = 1 := by omega
  rw [bits, foldl_xor_eq_odd, Bool.false_xor, decide_eq_decide.2 even, decide_not]
  rfl

theorem Fcw.logic_eq_logicFlags (z : Size) (r : BitVec z.bits) (k : Fcw) : Fcw.logic z k r = logicFlags z r k := by
  cases z with
  | b =>
    change { k.zs r with v := parityEven r } = { resultFlags r k with v := decide (ones r % 2 = 0) }
    rw [Fcw.zs_eq_resultFlags, parityEven_eq]
  | w | l => exact Fcw.zs_eq_resultFlags k r

/-! ### The shared operations -/

section
variable (z : Size)

theorem logicOp_eq (f : BitVec z.bits → BitVec z.bits → BitVec z.bits) (a b : BitVec z.bits) (k : Fcw) :
    logicOp z f a b k = (f a b, logicFlags z (f a b) k) :=
  congrArg (Prod.mk _) (Fcw.logic_eq_logicFlags z _ k)

theorem complement_eq (v : BitVec z.bits) (k : Fcw) : complement z v k = (~~~v, logicFlags z (~~~v) k) :=
  congrArg (Prod.mk _) (Fcw.logic_eq_logicFlags z _ k)

end

section
variable {n : Nat} (b : Nat) (v : BitVec n) (k : Fcw)

theorem bitReset_eq : bitReset b v k = (v &&& ~~~BitVec.twoPow n b, k) := rfl

theorem bitSet_eq : bitSet b v k = (v ||| BitVec.twoPow n b, k) := rfl

end

/-! ### The shapes of instructions -/

section
variable {z : Size} {d : Reg} {s : State}

/-- An instruction that inspects one operand, by the flags it computes. -/
theorem InspectsDst.of_inspect {mk : Dst → Instr} {f g : BitVec z.bits → Fcw → Fcw}
    (run : ∀ d s, exec (mk d) s = answer (inspect z d g s)) (computes : ∀ v k, g v k = f v k) :
    InspectsDst z mk f := fun d s h => by
  obtain ⟨bus, trace, e⟩ := inspect_spec z d g s h
  rw [computes] at e
  exact ⟨bus, trace, (run d s).trans (congrArg answer e)⟩

theorem inspect_reg_answers (hd : regFits z d = true) (f : BitVec z.bits → Fcw → Fcw) :
    Answers (answer (inspect z (.reg d) f s)) (s.setFcw (f (s.reg z d) s.fcw)) := by
  obtain ⟨bus, trace, e⟩ := inspect_spec z (.reg d) f s hd
  exact ⟨bus, trace, congrArg answer e⟩

/-- A register computed from itself by a rule that leaves the flags. -/
theorem modify_reg_answers (hd : regFits z d = true) {g : Unary z} {value : BitVec z.bits → BitVec z.bits}
    (computes : ∀ v k, g v k = (value v, k)) :
    Answers (answer (modify z (.reg d) g s)) (s.setReg z d (value (s.reg z d))) := by
  obtain ⟨bus, trace, e⟩ := modify_spec z (.reg d) g s hd
  have flags : (s.setReg z d (value (s.reg z d))).setFcw s.fcw = s.setReg z d (value (s.reg z d)) := by
    rw [← State.setReg_fcw z d (value (s.reg z d)) s]
    rfl
  rw [computes] at e
  rw [← flags]
  exact ⟨bus, trace, congrArg answer e⟩

/-! ### TCC (R406) -/

variable {cc : Cond}

theorem testCondition_eq (hd : regFits z d = true) :
    testCondition z cc d s = .ok (if condHolds cc s.fcw then s.setReg z d (s.reg z d ||| 1#z.bits) else s) := by
  rw [testCondition, bind_goesOn (readReg_fits hd)]
  split
  · rw [writeReg_eq, if_pos hd]
  · rfl

theorem testCondition_answers_of_holds (hd : regFits z d = true) (h : condHolds cc s.fcw = true) :
    Answers (answer (testCondition z cc d s)) (s.setReg z d (s.reg z d ||| 1#z.bits)) := by
  rw [testCondition_eq hd, if_pos h]
  exact Answers.next _

theorem testCondition_answers_of_fails (hd : regFits z d = true) (h : condHolds cc s.fcw = false) :
    Answers (answer (testCondition z cc d s)) s := by
  rw [testCondition_eq hd, h]
  exact Answers.next _

end

/-! ### The obligations -/

/-- Settles O40: each computes its bitwise value and the flags of R400. -/
theorem logicResult : Obligations.LogicResult :=
  ⟨.of_binary (fun _ _ _ => rfl) (logicOp_eq .w (· &&& ·)), .of_binary (fun _ _ _ => rfl) (logicOp_eq .b (· &&& ·)),
    .of_binary (fun _ _ _ => rfl) (logicOp_eq .w (· ||| ·)), .of_binary (fun _ _ _ => rfl) (logicOp_eq .b (· ||| ·)),
    .of_binary (fun _ _ _ => rfl) (logicOp_eq .w (· ^^^ ·)), .of_binary (fun _ _ _ => rfl) (logicOp_eq .b (· ^^^ ·)),
    .of_modify (g := fun _ => complement .w) (fun _ _ => rfl) fun _ => complement_eq .w,
    .of_modify (g := fun _ => complement .b) (fun _ _ => rfl) fun _ => complement_eq .b,
    .of_inspect (fun _ _ => rfl) (Fcw.logic_eq_logicFlags .w), .of_inspect (fun _ _ => rfl) (Fcw.logic_eq_logicFlags .b),
    .of_inspect (fun _ _ => rfl) (Fcw.logic_eq_logicFlags .l)⟩

/-- Settles O41: a dynamic form is the static one on a register, at the bit number its word register holds. -/
theorem bitResult : Obligations.BitResult := by
  refine ⟨fun n => ⟨?_, ?_, ?_⟩, fun n => ⟨?_, ?_, ?_⟩, fun d c s => ⟨?_, ?_, ?_, ?_, ?_, ?_⟩⟩
  · exact .of_inspect (fun _ _ => rfl) fun _ _ => rfl
  · exact .of_modify (g := fun _ => bitReset n.toNat) (fun _ _ => rfl) fun _ => bitReset_eq n.toNat
  · exact .of_modify (g := fun _ => bitSet n.toNat) (fun _ _ => rfl) fun _ => bitSet_eq n.toNat
  · exact .of_inspect (fun _ _ => rfl) fun _ _ => rfl
  · exact .of_modify (g := fun _ => bitReset n.toNat) (fun _ _ => rfl) fun _ => bitReset_eq n.toNat
  · exact .of_modify (g := fun _ => bitSet n.toNat) (fun _ _ => rfl) fun _ => bitSet_eq n.toNat
  · exact inspect_reg_answers (z := .w) rfl (bitTest (wordBit c s))
  · exact inspect_reg_answers (z := .b) rfl (bitTest (byteBit c s))
  · exact (modify_reg_answers (z := .w) rfl (bitReset_eq (wordBit c s)) :)
  · exact (modify_reg_answers (z := .b) rfl (bitReset_eq (byteBit c s)) :)
  · exact (modify_reg_answers (z := .w) rfl (bitSet_eq (wordBit c s)) :)
  · exact (modify_reg_answers (z := .b) rfl (bitSet_eq (byteBit c s)) :)

end Machine

/-- Settles O42: TCC names a word or byte register, which no pair code can refuse (R25). The model's operation of TSET has
this name in `Machine`. -/
theorem testAndSet : Obligations.TestAndSet := by
  refine ⟨?_, ?_, fun cc d s => ⟨fun h => ⟨?_, ?_⟩, fun h => ⟨?_, ?_⟩⟩⟩
  · exact .of_modify (g := fun _ => Machine.testAndSet) (fun _ _ => rfl) fun _ _ _ => rfl
  · exact .of_modify (g := fun _ => Machine.testAndSet) (fun _ _ => rfl) fun _ _ _ => rfl
  · exact Machine.testCondition_answers_of_holds (z := .w) rfl h
  · exact Machine.testCondition_answers_of_holds (z := .b) rfl h
  · exact Machine.testCondition_answers_of_fails (z := .w) rfl h
  · exact Machine.testCondition_answers_of_fails (z := .b) rfl h

end Sys2Proof
end

section
/-! Shifts and rotates (R500 to R507, R510, R511, R520 to R523). The model runs one-bit steps; here the operand and C
after any number of steps are the closed forms of R507, and a rotate through C turns a ring of one more bit. -/

namespace Sys2Proof.Machine

section
variable {n : Nat}

/-! ### Runs of one-bit steps (R500) -/

/-- From the operand `x` with the carry `c`, the operand and C after `j` steps, `j` at least 1, are `value j` and
`carry j`. -/
def RunsThrough (step : Shifting n → Shifting n) (x : BitVec n) (c : Bool) (value : Nat → BitVec n)
    (carry : Nat → Bool) : Prop :=
  ∀ j, step^[j + 1] ⟨x, c⟩ = ⟨value (j + 1), carry (j + 1)⟩

section
variable {step : Shifting n → Shifting n} {x : BitVec n} {c : Bool} {value : Nat → BitVec n} {carry : Nat → Bool}

/-- One step at a time; the first one takes the carry `c`. -/
theorem RunsThrough.of_step (start : value 0 = x)
    (next : ∀ j, step ⟨value j, if j = 0 then c else carry j⟩ = ⟨value (j + 1), carry (j + 1)⟩) :
    RunsThrough step x c value carry := by
  intro j
  induction j with
  | zero => rw [← start]; exact next 0
  | succ j ih => rw [Function.iterate_succ_apply', ih]; exact next (j + 1)

theorem runSteps_eq (step : Shifting n → Shifting n) (sign : Bool) (k : Nat) (t : Shifting n) :
    runSteps step sign k t = (step^[k] t, (List.range k).any fun j => (step^[j + 1] t).x.msb != sign) := by
  induction k generalizing t with
  | zero => rfl
  | succ k ih =>
    rw [runSteps, ih, List.range_succ_eq_map, List.any_cons, List.any_map]
    rfl

theorem RunsThrough.shiftBy_eq {f : Fcw} {k : Nat} (h : RunsThrough step x f.c value carry) (rule : ShiftV)
    (hk : 0 < k) : shiftBy step rule k x f = rotated rule k value carry x f := by
  obtain ⟨k, rfl⟩ := Nat.exists_eq_add_one_of_ne_zero hk.ne'
  simp only [shiftBy, runSteps_eq, h _, Fcw.zs_eq_resultFlags, rotated]
  cases rule <;> rfl

theorem shiftV_anyStep_iff {k : Nat} :
    shiftV .anyStep x value k = true ↔ ∃ j < k, ((value (j + 1)).msb != x.msb) = true := by
  simp only [shiftV, List.any_eq_true, List.mem_range]

/-- A run that changes nothing after `n + 1` steps may be cut down to them (R507). -/
theorem rotated_shiftCount {k : Nat} (settled : ∀ j, n < j → value j = value (n + 1) ∧ carry j = carry (n + 1))
    (rule : ShiftV) (f : Fcw) : rotated rule (shiftCount n k) value carry x f = rotated rule k value carry x f := by
  obtain hk | hk : k ≤ n + 1 ∨ n < k := by omega
  · rw [shiftCount, Nat.min_eq_left hk]
  · obtain ⟨hv, hc⟩ := settled k hk
    have overflow : shiftV rule x value (n + 1) = shiftV rule x value k := by
      cases rule with
      | final => rw [shiftV, shiftV, hv]
      | anyStep =>
        rw [Bool.eq_iff_iff, shiftV_anyStep_iff, shiftV_anyStep_iff]
        constructor
        · rintro ⟨j, hj, changed⟩
          exact ⟨j, by omega, changed⟩
        · rintro ⟨j, -, changed⟩
          obtain h | h : j < n + 1 ∨ n < j + 1 := by omega
          · exact ⟨j, h, changed⟩
          · exact ⟨n, n.lt_succ_self, (settled _ h).1 ▸ changed⟩
    rw [shiftCount, Nat.min_eq_right hk, rotated, rotated, overflow, hv, hc]

/-- The model cuts a shift down to `n + 1` steps, after which it has settled. -/
theorem RunsThrough.shiftBy_shiftCount_eq {f : Fcw} {k : Nat} (h : RunsThrough step x f.c value carry)
    (settled : ∀ j, n < j → value j = value (n + 1) ∧ carry j = carry (n + 1)) (rule : ShiftV) (hk : 0 < k) :
    shiftBy step rule (shiftCount n k) x f = rotated rule k value carry x f :=
  (h.shiftBy_eq rule (Nat.lt_min.2 ⟨hk, n.succ_pos⟩)).trans (rotated_shiftCount settled rule f)

/-- V where every step leaves the same sign. -/
theorem shiftV_of_sign {k : Nat} {sign : Bool} (h : ∀ j, (value (j + 1)).msb = sign) (rule : ShiftV) (hk : 0 < k) :
    shiftV rule x value k = (sign != x.msb) := by
  cases rule with
  | final =>
    obtain ⟨k, rfl⟩ := Nat.exists_eq_add_one_of_ne_zero hk.ne'
    rw [shiftV, h]
  | anyStep =>
    rw [Bool.eq_iff_iff, shiftV_anyStep_iff]
    simp only [h]
    exact ⟨fun ⟨_, _, changed⟩ => changed, fun changed => ⟨0, hk, changed⟩⟩

end

/-! ### Shifts (R507) -/

section
variable (x : BitVec n)

theorem shlStep_runs (c : Bool) :
    RunsThrough shlStep x c (x <<< ·) fun k => decide (k ≤ n) && x.getLsbD (n - k) := by
  refine .of_step (BitVec.shiftLeft_zero x) fun j => ?_
  have msb : (x <<< j).msb = (decide (j + 1 ≤ n) && x.getLsbD (n - (j + 1))) := by
    rw [BitVec.msb_shiftLeft, BitVec.getMsbD, Nat.sub_sub, Nat.add_comm 1 j]
    rfl
  rw [shlStep, ← BitVec.shiftLeft_add, msb]

theorem sarStep_runs (c : Bool) :
    RunsThrough sarStep x c (x.sshiftRight ·) fun k => (x.sshiftRight (k - 1)).getLsbD 0 :=
  .of_step (BitVec.sshiftRight_zero) fun j => by rw [sarStep, ← BitVec.sshiftRight_add]; rfl

theorem shrStep_runs (c : Bool) : RunsThrough shrStep x c (x >>> ·) fun k => (x >>> (k - 1)).getLsbD 0 :=
  .of_step (BitVec.ushiftRight_zero x) fun j => by rw [shrStep, ← BitVec.shiftRight_add]; rfl

/-- An arithmetic shift by the width or more leaves the sign in every bit. -/
theorem sshiftRight_of_width_le {k : Nat} (hk : n ≤ k) : x.sshiftRight k = x.sshiftRight n := by
  ext i hi
  simp [BitVec.getElem_sshiftRight, show ¬ k + i < n by omega]

end

section
variable (rule : ShiftV) (k : Nat) (x : BitVec n) (f : Fcw) (hk : 0 < k)
include hk

theorem shiftBy_shlStep : shiftBy shlStep rule (shiftCount n k) x f = shiftedLeft rule k x f := by
  rw [(shlStep_runs x f.c).shiftBy_shiftCount_eq _ rule hk]
  · rfl
  · intro j hj
    rw [BitVec.shiftLeft_eq_zero hj.le, BitVec.shiftLeft_eq_zero n.le_succ, decide_eq_false hj.not_ge,
      decide_eq_false n.lt_succ_self.not_ge]
    exact ⟨rfl, rfl⟩

theorem shiftBy_sarStep : shiftBy sarStep rule (shiftCount n k) x f = shiftedArithmetic k x f := by
  rw [(sarStep_runs x f.c).shiftBy_shiftCount_eq _ rule hk, rotated,
    shiftV_of_sign (fun _ => BitVec.msb_sshiftRight) rule hk, bne_self_eq_false]
  · rfl
  · intro j hj
    rw [sshiftRight_of_width_le x hj.le, sshiftRight_of_width_le x n.le_succ,
      sshiftRight_of_width_le x (Nat.le_sub_one_of_lt hj)]
    exact ⟨rfl, rfl⟩

theorem shiftBy_shrStep : shiftBy shrStep rule (shiftCount n k) x f = shiftedLogical k x f := by
  have positive : ∀ j, (x >>> (j + 1)).msb = false := fun j => by simp [BitVec.msb_ushiftRight]
  rw [(shrStep_runs x f.c).shiftBy_shiftCount_eq _ rule hk, rotated, shiftV_of_sign positive rule hk, Bool.false_bne]
  · rfl
  · intro j hj
    rw [BitVec.ushiftRight_eq_zero hj.le, BitVec.ushiftRight_eq_zero n.le_succ,
      BitVec.ushiftRight_eq_zero (Nat.le_sub_one_of_lt hj), Nat.add_sub_cancel, BitVec.ushiftRight_eq_zero n.le_refl]
    exact ⟨rfl, rfl⟩

end

theorem shiftZero_eq (clearsC : Bool) (x : BitVec n) (f : Fcw) : shiftZero clearsC x f = notShifted clearsC x f := by
  rw [shiftZero, notShifted, Fcw.zs_eq_resultFlags]
  cases clearsC <;> rfl

/-! ### Rotates -/

/-- A right rotate by `r` positions reads `r` bits further up, around the end. -/
theorem getLsbD_rotateRight_mod (x : BitVec n) (r : Nat) {i : Nat} (hi : i < n) :
    (x.rotateRight r).getLsbD i = x.getLsbD ((r + i) % n) := by
  have hr := Nat.mod_lt r (Nat.zero_lt_of_lt hi)
  rw [← Nat.mod_add_mod, BitVec.getLsbD_rotateRight]
  by_cases inside : i < n - r % n
  · rw [Nat.mod_eq_of_lt (by omega : r % n + i < n)]
    simp [inside]
  · have around : (r % n + i) % n = i - (n - r % n) := by
      rw [Nat.mod_eq_sub_mod (by omega), Nat.mod_eq_of_lt (by omega)]
      omega
    rw [around]
    simp [inside, hi]

theorem rotateLeft_add_one (x : BitVec n) (r : Nat) : x.rotateLeft (r + 1) = (x.rotateLeft r).rotateLeft 1 := by
  refine BitVec.eq_of_getMsbD_eq fun i hi => ?_
  rw [BitVec.getMsbD_rotateLeft, BitVec.getMsbD_rotateLeft, BitVec.getMsbD_rotateLeft, Nat.add_mod_mod, Nat.add_assoc]
  simp [Nat.mod_lt _ (Nat.zero_lt_of_lt hi)]

theorem rotateRight_add_one (x : BitVec n) (r : Nat) : x.rotateRight (r + 1) = (x.rotateRight r).rotateRight 1 := by
  refine BitVec.eq_of_getLsbD_eq fun i hi => ?_
  rw [getLsbD_rotateRight_mod _ _ hi, getLsbD_rotateRight_mod _ _ hi,
    getLsbD_rotateRight_mod _ _ (Nat.mod_lt _ (Nat.zero_lt_of_lt hi)), Nat.add_mod_mod, Nat.add_assoc]

theorem rotateLeft_zero (x : BitVec n) : x.rotateLeft 0 = x := by
  simp [BitVec.rotateLeft_def, BitVec.ushiftRight_eq_zero]

theorem rotateRight_zero (x : BitVec n) : x.rotateRight 0 = x := by simp [BitVec.rotateRight_def]

/-- By one position, the top bit enters at the bottom. -/
theorem getLsbD_rotateLeft_one (x : BitVec n) {i : Nat} (hi : i < n) :
    (x.rotateLeft 1).getLsbD i = if i = 0 then x.msb else x.getLsbD (i - 1) := by
  obtain rfl | hn : n = 1 ∨ 1 < n := by omega
  · obtain rfl : i = 0 := by omega
    simp [BitVec.msb_eq_getLsbD_last]
  · rw [BitVec.getLsbD_rotateLeft_of_le hn, BitVec.msb_eq_getLsbD_last]
    cases i with
    | zero => simp
    | succ i => simp; omega

/-- By one position, the bottom bit enters at the top. -/
theorem getLsbD_rotateRight_one (x : BitVec n) {i : Nat} (hi : i < n) :
    (x.rotateRight 1).getLsbD i = if i = n - 1 then x.getLsbD 0 else x.getLsbD (i + 1) := by
  rw [getLsbD_rotateRight_mod x 1 hi]
  split
  · next h => rw [show 1 + i = n by omega, Nat.mod_self]
  · next h => rw [Nat.mod_eq_of_lt (by omega), Nat.add_comm]

theorem getLsbD_ofNat_toNat (b : Bool) {i : Nat} (hi : i < n) :
    (BitVec.ofNat n b.toNat).getLsbD i = (decide (i = 0) && b) := by
  cases b with
  | false => simp
  | true => simp [BitVec.getLsbD_one, Nat.zero_lt_of_lt hi]

/-- A bit shifted in at the bottom. -/
theorem getLsbD_shiftLeft_or_bit (x : BitVec n) (b : Bool) {i : Nat} (hi : i < n) :
    (x <<< 1 ||| BitVec.ofNat n b.toNat).getLsbD i = if i = 0 then b else x.getLsbD (i - 1) := by
  rw [BitVec.getLsbD_or, BitVec.getLsbD_shiftLeft, getLsbD_ofNat_toNat b hi]
  cases i with
  | zero => simp
  | succ i => simp [hi]

/-- A bit shifted in at the top. -/
theorem getLsbD_shiftRight_or_bit (x : BitVec n) (b : Bool) {i : Nat} (hi : i < n) :
    (x >>> 1 ||| BitVec.ofNat n b.toNat <<< (n - 1)).getLsbD i = if i = n - 1 then b else x.getLsbD (i + 1) := by
  rw [BitVec.getLsbD_or, BitVec.getLsbD_ushiftRight, BitVec.getLsbD_shiftLeft, getLsbD_ofNat_toNat b (by omega),
    Nat.add_comm 1 i]
  obtain rfl | h : i = n - 1 ∨ i < n - 1 := by omega
  · simp [show n - 1 + 1 = n by omega, hi]
  · simp [h, h.ne]

theorem rlStep_eq (x : BitVec n) (c : Bool) (hn : 0 < n) :
    rlStep ⟨x, c⟩ = ⟨x.rotateLeft 1, (x.rotateLeft 1).getLsbD 0⟩ := by
  rw [rlStep, getLsbD_rotateLeft_one x hn, if_pos rfl]
  congr 1
  exact BitVec.eq_of_getLsbD_eq fun i hi => by rw [getLsbD_rotateLeft_one x hi, getLsbD_shiftLeft_or_bit x _ hi]

theorem rrStep_eq (x : BitVec n) (c : Bool) (hn : 0 < n) :
    rrStep ⟨x, c⟩ = ⟨x.rotateRight 1, (x.rotateRight 1).msb⟩ := by
  rw [rrStep, BitVec.msb_eq_getLsbD_last, getLsbD_rotateRight_one x (by omega), if_pos rfl]
  congr 1
  exact BitVec.eq_of_getLsbD_eq fun i hi => by rw [getLsbD_rotateRight_one x hi, getLsbD_shiftRight_or_bit x _ hi]

theorem rlStep_runs (x : BitVec n) (c : Bool) (hn : 0 < n) :
    RunsThrough rlStep x c (x.rotateLeft ·) fun k => (x.rotateLeft k).getLsbD 0 :=
  .of_step (rotateLeft_zero x) fun j => by rw [rlStep_eq _ _ hn, ← rotateLeft_add_one]

theorem rrStep_runs (x : BitVec n) (c : Bool) (hn : 0 < n) :
    RunsThrough rrStep x c (x.rotateRight ·) fun k => (x.rotateRight k).msb :=
  .of_step (rotateRight_zero x) fun j => by rw [rrStep_eq _ _ hn, ← rotateRight_add_one]

/-- A ring of `n + 1` bits as the operand and, above it, the carry (R502, R504). -/
def ofRing (y : BitVec (1 + n)) : Shifting n := ⟨y.extractLsb' 0 n, y.msb⟩

theorem ofRing_withCarry (c : Bool) (x : BitVec n) : ofRing (withCarry c x) = ⟨x, c⟩ := by
  rw [ofRing, withCarry, BitVec.extractLsb'_append_eq_right, BitVec.msb_append, if_neg (by decide)]
  simp

theorem rlcStep_ofRing (y : BitVec (1 + n)) (hn : 0 < n) : rlcStep (ofRing y) = ofRing (y.rotateLeft 1) := by
  simp only [rlcStep, ofRing]
  congr 1
  · refine BitVec.eq_of_getLsbD_eq fun i hi => ?_
    rw [getLsbD_shiftLeft_or_bit _ _ hi, BitVec.getLsbD_extractLsb', BitVec.getLsbD_extractLsb',
      getLsbD_rotateLeft_one y (by omega)]
    simp [hi, Nat.lt_of_le_of_lt (Nat.sub_le i 1) hi]
  · rw [BitVec.msb_eq_getLsbD_last, BitVec.msb_eq_getLsbD_last, getLsbD_rotateLeft_one y (by omega)]
    simp [hn, hn.ne']

theorem rrcStep_ofRing (y : BitVec (1 + n)) (hn : 0 < n) : rrcStep (ofRing y) = ofRing (y.rotateRight 1) := by
  simp only [rrcStep, ofRing]
  congr 1
  · refine BitVec.eq_of_getLsbD_eq fun i hi => ?_
    rw [getLsbD_shiftRight_or_bit _ _ hi, BitVec.getLsbD_extractLsb', BitVec.getLsbD_extractLsb',
      getLsbD_rotateRight_one y (by omega), BitVec.msb_eq_getLsbD_last]
    obtain rfl | h : n = i + 1 ∨ i + 1 < n := by omega
    · simp [Nat.add_comm 1]
    · simp [h, hi, hi.ne, show i ≠ n - 1 by omega]
  · rw [BitVec.msb_eq_getLsbD_last, getLsbD_rotateRight_one y (by omega)]
    simp [hn]

/-- A step that turns the ring of the operand and C by one position. -/
theorem RunsThrough.of_ring {step : Shifting n → Shifting n} {turn : Nat → BitVec (1 + n)} (x : BitVec n) (c : Bool)
    (start : turn 0 = withCarry c x) (next : ∀ j, step (ofRing (turn j)) = ofRing (turn (j + 1))) :
    RunsThrough step x c (fun j => (turn j).extractLsb' 0 n) fun j => (turn j).msb := by
  have ring : ofRing (turn 0) = ⟨x, c⟩ := start ▸ ofRing_withCarry c x
  intro j
  rw [← ring]
  show _ = ofRing (turn (j + 1))
  induction j with
  | zero => exact next 0
  | succ j ih => rw [Function.iterate_succ_apply', ih, next]

section
variable (hn : 0 < n) (rule : ShiftV) (k : Nat) (x : BitVec n) (f : Fcw) (hk : 0 < k)
include hn hk

theorem shiftBy_rlStep : shiftBy rlStep rule k x f = rotatedLeft rule k x f :=
  (rlStep_runs x f.c hn).shiftBy_eq rule hk

theorem shiftBy_rrStep : shiftBy rrStep rule k x f = rotatedRight rule k x f :=
  (rrStep_runs x f.c hn).shiftBy_eq rule hk

theorem shiftBy_rlcStep : shiftBy rlcStep rule k x f = rotatedLeftCarry rule k x f :=
  (RunsThrough.of_ring x f.c (rotateLeft_zero _) fun j => by
    rw [rlcStep_ofRing _ hn, ← rotateLeft_add_one]).shiftBy_eq rule hk

theorem shiftBy_rrcStep : shiftBy rrcStep rule k x f = rotatedRightCarry rule k x f :=
  (RunsThrough.of_ring x f.c (rotateRight_zero _) fun j => by
    rw [rrcStep_ofRing _ hn, ← rotateRight_add_one]).shiftBy_eq rule hk

end

end

/-! ### Digits (R505, R506) -/

section
variable (a : Byte)

theorem and_highDigit_eq : a &&& 0xF0#8 = a.extractLsb' 4 4 ++ 0#4 :=
  calc a &&& 0xF0#8
    _ = (a.extractLsb' 4 4 ++ a.extractLsb' 0 4) &&& (BitVec.allOnes 4 ++ 0#4) :=
      congrArg (· &&& 0xF0#8) (BitVec.extractLsb'_append_extractLsb' (w := 4) (len := 4)).symm
    _ = a.extractLsb' 4 4 ++ 0#4 := by rw [BitVec.and_append, BitVec.and_allOnes, BitVec.and_zero]

theorem and_lowDigit_eq : a &&& 0x0F#8 = 0#4 ++ a.extractLsb' 0 4 :=
  calc a &&& 0x0F#8
    _ = (a.extractLsb' 4 4 ++ a.extractLsb' 0 4) &&& (0#4 ++ BitVec.allOnes 4) :=
      congrArg (· &&& 0x0F#8) (BitVec.extractLsb'_append_extractLsb' (w := 4) (len := 4)).symm
    _ = 0#4 ++ a.extractLsb' 0 4 := by rw [BitVec.and_append, BitVec.and_allOnes, BitVec.and_zero]

theorem shiftLeft_digit_eq : a <<< 4 = a.extractLsb' 0 4 ++ 0#4 := BitVec.shiftLeft_eq_concat_of_lt (by decide)

theorem shiftRight_digit_eq : a >>> 4 = 0#4 ++ a.extractLsb' 4 4 := BitVec.ushiftRight_eq_extractLsb'_of_lt (by decide)

theorem or_digits (hi lo : BitVec 4) : (hi ++ 0#4 ||| 0#4 ++ lo : Byte) = hi ++ lo :=
  BitVec.or_append.trans (by rw [BitVec.or_zero, BitVec.zero_or])

theorem digitsLeft_eq (b : Byte) : digitsLeft a b = (a &&& 0xF0#8 ||| b >>> 4, b <<< 4 ||| a &&& 0x0F#8) := by
  rw [and_highDigit_eq, and_lowDigit_eq, shiftLeft_digit_eq, shiftRight_digit_eq, or_digits, or_digits]
  rfl

theorem digitsRight_eq (b : Byte) : digitsRight a b = (a &&& 0xF0#8 ||| b &&& 0x0F#8, a <<< 4 ||| b >>> 4) := by
  rw [and_highDigit_eq, and_lowDigit_eq, shiftLeft_digit_eq, shiftRight_digit_eq, or_digits, or_digits]
  rfl

end

theorem rotateDigits_answers {d c : Reg} {s : State} {f : Byte → Byte → Byte × Byte} {x y : Byte} (h : d ≠ c)
    (moved : f (s.byte d) (s.byte c) = (x, y)) :
    Answers (answer (rotateDigits d c f s))
      (((s.setByte d x).setByte c y).setFcw { s.fcw with z := decide (x = 0) }) := by
  rw [rotateDigits, require_goesOn (bne_iff_ne.2 h), moved]
  exact Answers.next _

/-! ### The shapes of instructions -/

section
variable {z : Size} {mk : Reg → Instr} {step : Shifting z.bits → Shifting z.bits}

/-- An instruction on one register, by the value and flags it computes. -/
theorem ShiftsReg.of_modifyReg {f g : State → Unary z} (run : ∀ d s, exec (mk d) s = answer (modifyReg z d (g s) s))
    (computes : ∀ s v k, g s v k = f s v k) : ShiftsReg z mk f := fun d s hd => by
  rw [run, modifyReg_spec z d (g s) s hd, computes]
  exact Answers.next _

/-- A rotate goes one or two positions. -/
theorem ShiftsReg.of_rotate {two : Bool} {closed : ShiftV → Nat → Unary z}
    (closes : ∀ rule k x f, 0 < k → shiftBy step rule k x f = closed rule k x f)
    (run : ∀ d s, exec (mk d) s = answer (rotate z d two step s)) :
    ShiftsReg z mk fun s => closed s.cfg.shiftV (if two then 2 else 1) :=
  .of_modifyReg run fun s x f => closes s.cfg.shiftV _ x f (by cases two <;> decide)

/-- A static left shift; `clears` tells whether a zero count clears C. -/
theorem ShiftsReg.of_shiftLeft {m : Nat} {q : BitVec m} {clears : State → Bool}
    (run : ∀ d s, exec (mk d) s = answer (modifyReg z d (shiftLeft z q.toNat s.cfg) s))
    (rule : ∀ s, (s.cfg.staticShift0ClearsC && z != .l) = clears s) :
    ShiftsReg z mk fun s x f =>
      if q = 0 then notShifted (clears s) x f else shiftedLeft s.cfg.shiftV q.toNat x f :=
  .of_modifyReg run fun s x f => by
    have zero : q.toNat = 0 ↔ q = 0 := by simp [BitVec.toNat_eq]
    by_cases h : q = 0
    · rw [shiftLeft, if_pos (zero.2 h), if_pos h, shiftZero_eq, rule]
    · have positive := mt zero.1 h
      rw [shiftLeft, if_neg positive, if_neg h]
      exact shiftBy_shlStep s.cfg.shiftV _ x f (Nat.pos_of_ne_zero positive)

variable {closed : Nat → Unary z}
  (closes : ∀ rule k x f, 0 < k → shiftBy step rule (shiftCount z.bits k) x f = closed k x f)
include closes

/-- A static right shift: `range` is what the count's bits below its sign are subtracted from (R522, R523). -/
theorem ShiftsReg.of_shiftRight {m range : Nat} {q : BitVec m} (range_eq : 2 ^ m = range)
    (run : ∀ d s, exec (mk d) s = answer (modifyReg z d (shiftSome z (rightPositions q) step s.cfg.shiftV) s)) :
    ShiftsReg z mk fun _ => closed (range - q.toNat) :=
  range_eq ▸ .of_modifyReg run fun s x f => closes s.cfg.shiftV _ x f (Nat.sub_pos_of_lt q.isLt)

theorem shiftDynamic_eq (rule : ShiftV) (count : Word) (x : BitVec z.bits) (f : Fcw) :
    shiftDynamic z step rule count x f = dynamicShift rule (z != .l) closed count.toInt x f := by
  rw [shiftDynamic, dynamicShift]
  split
  · exact shiftZero_eq _ x f
  · split
    · exact shiftBy_shlStep rule _ x f (by omega)
    · exact closes rule _ x f (by omega)

/-- A dynamic shift reads its count before the register is written. -/
theorem ShiftsReg.of_shiftDynamic {c : Reg}
    (run : ∀ d s, exec (mk d) s = answer (modifyReg z d (shiftDynamic z step s.cfg.shiftV (s.word c)) s)) :
    ShiftsReg z mk fun s => dynamicShift s.cfg.shiftV (z != .l) closed (s.word c).toInt :=
  .of_modifyReg run fun s => shiftDynamic_eq closes s.cfg.shiftV (s.word c)

end

/-! ### The obligations -/

/-- Settles O43: a rotate is a run of its one-bit step, a digit rotate one write of two registers. -/
theorem rotateResult : Obligations.RotateResult := by
  refine ⟨fun two => ⟨?_, ?_, ?_, ?_, ?_, ?_, ?_, ?_⟩, fun d c s h => ⟨?_, ?_⟩⟩
  · exact .of_rotate (z := .w) (shiftBy_rlStep (by decide)) fun _ _ => rfl
  · exact .of_rotate (z := .b) (shiftBy_rlStep (by decide)) fun _ _ => rfl
  · exact .of_rotate (z := .w) (shiftBy_rrStep (by decide)) fun _ _ => rfl
  · exact .of_rotate (z := .b) (shiftBy_rrStep (by decide)) fun _ _ => rfl
  · exact .of_rotate (z := .w) (shiftBy_rlcStep (by decide)) fun _ _ => rfl
  · exact .of_rotate (z := .b) (shiftBy_rlcStep (by decide)) fun _ _ => rfl
  · exact .of_rotate (z := .w) (shiftBy_rrcStep (by decide)) fun _ _ => rfl
  · exact .of_rotate (z := .b) (shiftBy_rrcStep (by decide)) fun _ _ => rfl
  · exact rotateDigits_answers h (digitsLeft_eq (s.byte d) (s.byte c))
  · exact rotateDigits_answers h (digitsRight_eq (s.byte d) (s.byte c))

/-- Settles O44: the one-bit steps settle after the width, so the model's bound on them loses no count (R507). -/
theorem shiftResult : Obligations.ShiftResult := by
  refine ⟨⟨fun q => ⟨?_, ?_, ?_, ?_, ?_, ?_, ?_, ?_⟩, fun q => ⟨?_, ?_, ?_, ?_⟩⟩,
    fun c => ⟨?_, ?_, ?_, ?_, ?_, ?_⟩⟩
  · exact .of_shiftLeft (z := .w) (fun _ _ => rfl) fun _ => rfl
  · exact .of_shiftLeft (z := .w) (fun _ _ => rfl) fun _ => rfl
  · exact .of_shiftLeft (z := .l) (fun _ _ => rfl) fun _ => rfl
  · exact .of_shiftLeft (z := .l) (fun _ _ => rfl) fun _ => rfl
  · exact .of_shiftRight (z := .w) shiftBy_sarStep (by decide) fun _ _ => rfl
  · exact .of_shiftRight (z := .l) shiftBy_sarStep (by decide) fun _ _ => rfl
  · exact .of_shiftRight (z := .w) shiftBy_shrStep (by decide) fun _ _ => rfl
  · exact .of_shiftRight (z := .l) shiftBy_shrStep (by decide) fun _ _ => rfl
  · exact .of_shiftLeft (z := .b) (fun _ _ => rfl) fun _ => Bool.and_true _
  · exact .of_shiftLeft (z := .b) (fun _ _ => rfl) fun _ => Bool.and_true _
  · exact .of_shiftRight (z := .b) shiftBy_sarStep (by decide) fun _ _ => rfl
  · exact .of_shiftRight (z := .b) shiftBy_shrStep (by decide) fun _ _ => rfl
  · exact .of_shiftDynamic (z := .w) shiftBy_sarStep fun _ _ => rfl
  · exact .of_shiftDynamic (z := .b) shiftBy_sarStep fun _ _ => rfl
  · exact .of_shiftDynamic (z := .l) shiftBy_sarStep fun _ _ => rfl
  · exact .of_shiftDynamic (z := .w) shiftBy_shrStep fun _ _ => rfl
  · exact .of_shiftDynamic (z := .b) shiftBy_shrStep fun _ _ => rfl
  · exact .of_shiftDynamic (z := .l) shiftBy_shrStep fun _ _ => rfl

end Sys2Proof.Machine
end

section
/-! A call and the return from it (R600, R605): a call that completes has pushed the PC of the next instruction, and RET
pops it. -/

namespace Sys2Proof.Machine

section
variable {m : Mem} {s t : State}

/-! ### What a push leaves for a pop (R14) -/

theorem State.setPc_setWord (s : State) (a : Word) (c : Reg) (v : Word) :
    (s.setPc a).setWord c v = (s.setWord c v).setPc a := by
  unfold State.setWord
  rw [apply_ite (fun u : State => u.setPc a)]
  rfl

theorem State.setPc_reaches (s : State) (a : Word) (z : Size) (b : Word) :
    (s.setPc a).reaches z b = s.reaches z b := rfl

theorem State.setPc_valueAt (s : State) (a : Word) (z : Size) (sp : Space) (b : Word) :
    (s.setPc a).valueAt z sp b = s.valueAt z sp b := by cases z <;> rfl

/-- What `push_events` says of a push of `v`, but for its transaction. -/
def State.afterPush (v : Word) (s : State) : State :=
  (s.setWord 15 (s.word 15 - 2)).putAt .w .stack (s.word 15 - 2) v

section
variable (v : Word) (s : State)

theorem State.afterPush_word : (s.afterPush v).word 15 = s.word 15 - 2 :=
  (State.putAt_word ..).trans (s.word_setWord_self ..)

theorem State.afterPush_reaches (z : Size) (a : Word) : (s.afterPush v).reaches z a = s.reaches z a :=
  (State.putAt_reaches ..).trans (State.setWord_reaches ..)

theorem State.afterPush_valueAt : (s.afterPush v).valueAt .w .stack (s.word 15 - 2) = v :=
  State.valueAt_putAt_self ..

/-- With the stack pointer back where it was, only the stored word is left of a push. -/
theorem State.afterPush_setWord :
    (s.afterPush v).setWord 15 (s.word 15) = s.putAt .w .stack (s.word 15 - 2) v := by
  rw [State.afterPush, State.putAt_setWord, State.setWord_setWord, State.setWord_word]

end

/-! ### The call -/

/-- A call that completes keeps off R15 and reaches its stack: else it is refused, or stops at the push (R600, R86). -/
theorem call_completes (h : exec (.call m) s = .next t) :
    memAvoids 15 m = true ∧ s.reaches .w (s.word 15 - 2) = true := by
  have avoids : memAvoids 15 m = true := by
    by_contra hm
    have stop : exec (.call m) s = .refused .callThroughStackPointer := refused_first (by simpa using hm)
    exact nomatch h.symm.trans stop
  refine ⟨avoids, (s.reaches_sub_two _).trans ?_⟩
  by_contra hr
  obtain ⟨-, -, -, ⟨-, -, stack⟩, -⟩ := oddAddressesFault
  obtain ⟨-, -, stop, -⟩ := stack s (by simpa using hr)
  exact nomatch h.symm.trans (stop m avoids)

/-- A call that completes leaves the PC of the next instruction on the stack. -/
theorem call_next (h : exec (.call m) s = .next t) :
    s.reaches .w (s.word 15 - 2) = true ∧
      ∃ es trace, t = ((s.afterPush s.pc).setPc (memEA m s).2).recorded es trace := by
  obtain ⟨avoids, reaches⟩ := call_completes h
  obtain ⟨completes, -⟩ := callResult s
  obtain ⟨call, -⟩ := completes reaches
  obtain ⟨trace, e⟩ := call m avoids
  exact ⟨reaches, _, trace, Host.Outcome.next.inj (h.symm.trans e)⟩

/-! ### The obligation -/

/-- Settles O47: RET pops the word the call pushed and puts the stack pointer back, so of `s` only memory and the bus
record have changed. -/
theorem callThenReturn : Obligations.CallThenReturn := by
  intro m s t h
  obtain ⟨reaches, es, trace, rfl⟩ := call_next h
  obtain ⟨-, completes, -⟩ := callResult (((s.afterPush s.pc).setPc (memEA m s).2).recorded es trace)
  have popped : s.word 15 - 2 + 2 = s.word 15 := BitVec.sub_add_cancel ..
  simp only [State.recorded_fcw, State.recorded_word, State.recorded_reaches, State.recorded_setWord,
    State.recorded_valueAt, State.setPc_word, State.setPc_reaches, State.setPc_setWord, State.setPc_valueAt,
    State.afterPush_word, State.afterPush_reaches, State.afterPush_setWord, State.afterPush_valueAt,
    popped] at completes
  obtain ⟨trace', e⟩ := completes .t rfl reaches
  rw [State.putAt_eq] at e
  exact ⟨_, e, rfl, rfl, rfl, rfl⟩

end

end Sys2Proof.Machine
end

section
/-! Block loads, compares and translations, one iteration (R650 to R678). What an iteration leaves is said once for each of
the five kinds, for every operand size and direction; a single form is one iteration, and a repeating form adds where PC
goes (R652). -/

namespace Sys2Proof.Machine

section
variable {z : Size} {dir : Direction} {d p r : Reg} {cc : Cond} {s : State}

/-! ### Pointers and counts (R650) -/

theorem separate_iff : separate d p r = true ↔ d ≠ p ∧ d ≠ r ∧ p ≠ r := by
  simp [separate, and_assoc]

theorem stepPointer_eq (z : Size) (dir : Direction) (p : Reg) (s : State) :
    stepPointer z dir p s = s.setWord p (moved z dir (s.word p)) := by cases dir <;> rfl

/-- A pointer and the count move from what they were before the iteration. -/
theorem countDown_stepPointer (h : p ≠ r) (s : State) : countDown r (stepPointer z dir p s) =
    (s.setWord p (moved z dir (s.word p))).setWord r (s.word r - 1) := by
  rw [countDown, stepPointer_eq, State.word_setWord_ne _ _ h.symm]

theorem countDown_stepPointers (h : separate d p r = true) (s : State) :
    countDown r (stepPointer z dir d (stepPointer z dir p s)) =
      ((s.setWord p (moved z dir (s.word p))).setWord d (moved z dir (s.word d))).setWord r (s.word r - 1) := by
  obtain ⟨hdp, hdr, hpr⟩ := separate_iff.1 h
  rw [countDown_stepPointer hdr, stepPointer_eq, State.word_setWord_ne _ _ hdp, State.word_setWord_ne _ _ hpr.symm]

theorem State.putAt_fcw (z : Size) (sp : Space) (a : Word) (v : BitVec z.bits) (s : State) :
    (s.putAt z sp a v).fcw = s.fcw := by rw [State.putAt_eq]

/-- R15 is another register only in the other mode (R24), so flags change no register. -/
theorem State.setFcw_word {k : Fcw} (h : k.sys = s.fcw.sys) (c : Reg) : (s.setFcw k).word c = s.word c := by
  unfold State.word
  rw [State.setFcw_fcw, h]
  rfl

/-- The register an iteration counts in, once its flags are set. -/
theorem counted_word {k : Fcw} (h : k.sys = s.fcw.sys) (v : Word) : ((s.setWord r v).setFcw k).word r = v := by
  rw [State.setFcw_word (h.trans (by rw [State.setWord_fcw])), State.word_setWord_self]

theorem State.recorded_reg (es : List BusEvent) (trace : Option (List Point)) (z : Size) (c : Reg) :
    (s.recorded es trace).reg z c = s.reg z c := s.reg_bus ..

theorem State.recorded_setByte (es : List BusEvent) (trace : Option (List Point)) (c : Reg) (v : Byte) :
    (s.recorded es trace).setByte c v = (s.setByte c v).recorded es trace := State.recorded_setWord ..

/-! ### From an iteration to its instruction -/

/-- A single form is over after its iteration. -/
theorem recorded_answers (s : State) (es : List BusEvent) (trace : Option (List Point)) :
    Answers (answer (.ok (s.recorded es trace))) s := ⟨_, _, rfl⟩

/-- A repeating form is over, or PC goes back to its first word (R652). -/
theorem repeatUnless_answers {done ends : Bool} (h : done = ends) (s : State) (es : List BusEvent)
    (trace : Option (List Point)) : Answers (answer (.ok (repeatUnless done (s.recorded es trace)))) (s.again ends) := by
  subst h
  cases done <;> exact ⟨_, _, rfl⟩

theorem load_recorded {a : Word} (sp : Space) (h : s.reaches z a = true) :
    ∃ es trace, load z sp a s = .ok (s.valueAt z sp a, s.recorded es trace) := by
  obtain ⟨trace, e⟩ := load_events sp h
  exact ⟨_, trace, e⟩

/-- A read after other transactions. -/
theorem load_after {a : Word} (sp : Space) (h : s.reaches z a = true) (es : List BusEvent)
    (trace : Option (List Point)) :
    ∃ es' trace', load z sp a (s.recorded es trace) = .ok (s.valueAt z sp a, s.recorded es' trace') := by
  obtain ⟨trace', e⟩ := load_events (s := s.recorded es trace) sp h
  rw [State.recorded_valueAt, State.recorded_recorded] at e
  exact ⟨_, trace', e⟩

/-- A write after other transactions. -/
theorem store_after {a : Word} (sp : Space) (h : s.reaches z a = true) (v : BitVec z.bits) (es : List BusEvent)
    (trace : Option (List Point)) :
    ∃ es' trace', store z sp a v (s.recorded es trace) = .ok ((s.putAt z sp a v).recorded es' trace') := by
  obtain ⟨trace', e⟩ := store_events (s := s.recorded es trace) sp v h
  rw [State.recorded_putAt, State.recorded_recorded] at e
  exact ⟨_, trace', e⟩

/-! ### Block loads (R661 to R664, R667) -/

theorem State.copied_word (c : Reg) : (s.copied z dir d p r).word c =
    if c = r then s.word r - 1 else if c = d then moved z dir (s.word d) else if c = p then moved z dir (s.word p)
      else s.word c := by
  rw [State.copied, State.setFcw_word (by simp only [State.setWord_fcw, State.putAt_fcw])]
  simp only [State.word_setWord, State.putAt_word]

theorem State.copied_cfg : (s.copied z dir d p r).cfg = s.cfg := by simp [State.copied, State.putAt_cfg]

theorem State.copied_pc : (s.copied z dir d p r).pc = s.pc := by
  rw [State.copied, State.putAt_eq]
  simp

theorem State.copied_repeating : (s.copied z dir d p r).repeating = s.repeating := by
  rw [State.copied, State.putAt_eq]
  simp

theorem State.copied_mem :
    (s.copied z dir d p r).mem = (s.putAt z (dsp d) (s.word d) (s.valueAt z (dsp p) (s.word p))).mem := by
  simp [State.copied]

/-- The read comes before the write; the pointers and the count are those before both. -/
theorem copyIter_recorded (hs : separate d p r = true) (hp : s.reaches z (s.word p) = true)
    (hd : s.reaches z (s.word d) = true) :
    ∃ es trace, copyIter z dir d p r s = .ok ((s.copied z dir d p r).recorded es trace) := by
  obtain ⟨es₁, trace₁, load⟩ := load_recorded (dsp p) hp
  obtain ⟨es, trace, store⟩ := store_after (dsp d) hd (s.valueAt z (dsp p) (s.word p)) es₁ trace₁
  refine ⟨es, trace, (bind_goesOn load).trans ((bind_goesOn store).trans ?_)⟩
  simp only [countDown_stepPointers hs, State.recorded_setWord, State.recorded_word, State.putAt_word,
    State.word_setWord_self, State.recorded_fcw, State.setWord_fcw, State.putAt_fcw, State.recorded_setFcw]
  rfl

/-- Z and V of a block load come from the count, and no condition it may have looks at them (R700). -/
theorem condHolds_blockLoad (hc : blockLoadCondition cc = true) (k : Fcw) (zero overflow : Bool) :
    condHolds cc { k with z := zero, v := overflow } = condHolds cc k := by
  cases cc with
  | f | t | mi | pl | c | nc => rfl
  | _ => cases hc

theorem copyOnce_answers (hs : separate d p r = true) (hp : s.reaches z (s.word p) = true)
    (hd : s.reaches z (s.word d) = true) :
    Answers (answer (copyOnce z dir d p r s)) (s.copied z dir d p r) := by
  obtain ⟨es, trace, e⟩ := copyIter_recorded hs hp hd
  rw [copyOnce, require_goesOn hs, e]
  exact recorded_answers ..

theorem copyRepeat_answers (hc : blockLoadCondition cc = true) (hs : separate d p r = true)
    (hp : s.reaches z (s.word p) = true) (hd : s.reaches z (s.word d) = true) :
    Answers (answer (copyRepeat z dir d p r cc s))
      ((s.copied z dir d p r).again (condHolds cc s.fcw || s.last r)) := by
  obtain ⟨es, trace, e⟩ := copyIter_recorded hs hp hd
  rw [copyRepeat, require_goesOn hc, require_goesOn hs, bind_goesOn e]
  refine repeatUnless_answers ?_ ..
  rw [State.recorded_word, State.copied_word, if_pos rfl]
  exact congrArg (· || s.last r) (condHolds_blockLoad hc ..)

/-- Settles O48: a byte can be accessed at every address (R86). -/
theorem blockLoadResult : Obligations.BlockLoadResult := fun _ _ _ _ hs =>
  ⟨fun hp hd => ⟨copyOnce_answers hs hp hd, copyOnce_answers hs hp hd,
      fun _ hc => ⟨copyRepeat_answers hc hs hp hd, copyRepeat_answers hc hs hp hd⟩⟩,
    copyOnce_answers hs rfl rfl, copyOnce_answers hs rfl rfl,
    fun _ hc => ⟨copyRepeat_answers hc hs rfl rfl, copyRepeat_answers hc hs rfl rfl⟩⟩

/-! ### Block compares with a register (R653 to R656, R665) -/

theorem ne_of_compareSeparate (h : compareSeparate z d p r = true) : p ≠ r := by
  have separate_pr (c : Reg) (h : separate c p r = true) : p ≠ r := by
    obtain ⟨-, -, hpr⟩ := separate_iff.1 h
    exact hpr
  cases z with
  | b => exact separate_pr (byteHome d) h
  | w | l => exact separate_pr d h

theorem compareIter_recorded (hf : regFits z d = true) (hpr : p ≠ r) (hp : s.reaches z (s.word p) = true) :
    ∃ es trace, compareIter z dir d p r cc s =
      .ok ((s.compared z dir d p r cc).1, (s.compared z dir d p r cc).2.recorded es trace) := by
  obtain ⟨es, trace, load⟩ := load_recorded (dsp p) hp
  refine ⟨es, trace, (bind_goesOn load).trans ((bind_goesOn (readReg_fits hf)).trans ?_)⟩
  simp only [countDown_stepPointer hpr, State.recorded_setWord, State.recorded_word, State.recorded_reg,
    State.word_setWord_self, State.recorded_fcw, State.recorded_setFcw, compareFlags_eq (bits_pos z)]
  rfl

theorem State.compared_word_count : (s.compared z dir d p r cc).2.word r = s.word r - 1 :=
  counted_word (by rw [State.setWord_fcw]; rfl) _

theorem compareOnce_answers (hs : compareSeparate z d p r = true) (hf : regFits z d = true)
    (hp : s.reaches z (s.word p) = true) :
    Answers (answer (compareOnce z dir d p r cc s)) (s.compared z dir d p r cc).2 := by
  obtain ⟨es, trace, e⟩ := compareIter_recorded hf (ne_of_compareSeparate hs) hp
  rw [compareOnce, require_goesOn hs, bind_goesOn e]
  exact recorded_answers ..

theorem compareRepeat_answers (hs : compareSeparate z d p r = true) (hf : regFits z d = true)
    (hp : s.reaches z (s.word p) = true) : Answers (answer (compareRepeat z dir d p r cc s))
      ((s.compared z dir d p r cc).2.again ((s.compared z dir d p r cc).1 || s.last r)) := by
  obtain ⟨es, trace, e⟩ := compareIter_recorded hf (ne_of_compareSeparate hs) hp
  rw [compareRepeat, require_goesOn hs, bind_goesOn e]
  refine repeatUnless_answers ?_ ..
  rw [State.recorded_word, State.compared_word_count]
  rfl

/-! ### String compares (R657 to R660, R666) -/

/-- The source is read first (log entry 36). -/
theorem stringIter_recorded (hs : separate d p r = true) (hp : s.reaches z (s.word p) = true)
    (hd : s.reaches z (s.word d) = true) :
    ∃ es trace, stringIter z dir d p r cc s =
      .ok ((s.matched z dir d p r cc).1, (s.matched z dir d p r cc).2.recorded es trace) := by
  obtain ⟨es₁, trace₁, load⟩ := load_recorded (dsp p) hp
  obtain ⟨es, trace, load'⟩ := load_after (dsp d) hd es₁ trace₁
  refine ⟨es, trace, (bind_goesOn load).trans ((bind_goesOn load').trans ?_)⟩
  simp only [countDown_stepPointers hs, State.recorded_setWord, State.recorded_word,
    State.word_setWord_self, State.recorded_fcw, State.recorded_setFcw, compareFlags_eq (bits_pos z)]
  rfl

theorem State.matched_word_count : (s.matched z dir d p r cc).2.word r = s.word r - 1 :=
  counted_word (by rw [State.setWord_fcw, State.setWord_fcw]; rfl) _

theorem stringOnce_answers (hs : separate d p r = true) (hp : s.reaches z (s.word p) = true)
    (hd : s.reaches z (s.word d) = true) :
    Answers (answer (stringOnce z dir d p r cc s)) (s.matched z dir d p r cc).2 := by
  obtain ⟨es, trace, e⟩ := stringIter_recorded hs hp hd
  rw [stringOnce, require_goesOn hs, bind_goesOn e]
  exact recorded_answers ..

theorem stringRepeat_answers (hs : separate d p r = true) (hp : s.reaches z (s.word p) = true)
    (hd : s.reaches z (s.word d) = true) : Answers (answer (stringRepeat z dir d p r cc s))
      ((s.matched z dir d p r cc).2.again ((s.matched z dir d p r cc).1 || s.last r)) := by
  obtain ⟨es, trace, e⟩ := stringIter_recorded hs hp hd
  rw [stringRepeat, require_goesOn hs, bind_goesOn e]
  refine repeatUnless_answers ?_ ..
  rw [State.recorded_word, State.matched_word_count]
  rfl

/-- Settles O49: a byte can be accessed at every address (R86), and a word or byte code always names a register. -/
theorem blockCompareResult : Obligations.BlockCompareResult := by
  refine ⟨fun d p r cc s => ⟨fun hs hp => ?_, fun hs => ?_⟩, fun d p r cc s hs => ⟨fun hp hd => ?_, ?_⟩⟩
  · exact ⟨compareOnce_answers hs rfl hp, compareOnce_answers hs rfl hp,
      compareRepeat_answers hs rfl hp, compareRepeat_answers hs rfl hp⟩
  · exact ⟨compareOnce_answers hs rfl rfl, compareOnce_answers hs rfl rfl,
      compareRepeat_answers hs rfl rfl, compareRepeat_answers hs rfl rfl⟩
  · exact ⟨stringOnce_answers hs hp hd, stringOnce_answers hs hp hd,
      stringRepeat_answers hs hp hd, stringRepeat_answers hs hp hd⟩
  · exact ⟨stringOnce_answers hs rfl rfl, stringOnce_answers hs rfl rfl,
      stringRepeat_answers hs rfl rfl, stringRepeat_answers hs rfl rfl⟩

/-! ### Translations (R670 to R673, R678) -/

theorem translateIter_recorded (hs : separate d p r = true) :
    ∃ es trace, translateIter dir d p r s = .ok ((s.translated dir d p r).recorded es trace) := by
  obtain ⟨-, hdr, -⟩ := separate_iff.1 hs
  obtain ⟨es₁, trace₁, load⟩ := load_recorded (z := .b) (s := s) (a := s.word d) (dsp d) rfl
  obtain ⟨es₂, trace₂, load'⟩ := load_after (z := .b) (s := s)
    (a := tableAddress (s.word p) (s.peek (dsp d) (s.word d))) (dsp p) rfl es₁ trace₁
  obtain ⟨es, trace, store⟩ := store_after (z := .b) (s := s) (a := s.word d) (dsp d) rfl (s.entry d p) es₂ trace₂
  refine ⟨es, trace, (bind_goesOn load).trans ((bind_goesOn load').trans ((bind_goesOn store).trans ?_))⟩
  simp only [countDown_stepPointer hdr, State.recorded_setWord, State.recorded_word, State.putAt_word,
    State.word_setWord_self, State.recorded_fcw, State.setWord_fcw, State.putAt_fcw, State.recorded_setFcw]
  rfl

theorem State.translated_word_count : (s.translated dir d p r).word r = s.word r - 1 :=
  counted_word (by rw [State.setWord_fcw, State.poke_fcw]) _

theorem translateOnce_answers (hs : separate d p r = true) :
    Answers (answer (translateOnce dir d p r s)) (s.translated dir d p r) := by
  obtain ⟨es, trace, e⟩ := translateIter_recorded hs
  rw [translateOnce, require_goesOn hs, e]
  exact recorded_answers ..

theorem translateRepeat_answers (hs : separate d p r = true) :
    Answers (answer (translateRepeat dir d p r s)) ((s.translated dir d p r).again (s.last r)) := by
  obtain ⟨es, trace, e⟩ := translateIter_recorded hs
  rw [translateRepeat, require_goesOn hs, bind_goesOn e]
  refine repeatUnless_answers ?_ ..
  rw [State.recorded_word, State.translated_word_count]
  rfl

/-! ### Translations with test (R674 to R677, R678) -/

theorem testSeparate_iff : testSeparate d p r = true ↔ separate d p r = true ∧ d ≠ 1 ∧ p ≠ 1 ∧ r ≠ 1 := by
  simp [testSeparate, and_assoc]

/-- RH1, which takes the table entry, is in neither the pointer nor the count (R674). -/
theorem State.setByte_rh1_word {c : Reg} (h : c ≠ 1) (v : Byte) : (s.setByte 1 v).word c = s.word c :=
  State.word_setWord_ne _ _ h

theorem translateTestIter_recorded (hs : testSeparate d p r = true) :
    ∃ es trace, translateTestIter dir d p r s =
      .ok (s.entry d p == 0, (s.tested dir d p r).recorded es trace) := by
  obtain ⟨hs, hd, -, hr⟩ := testSeparate_iff.1 hs
  obtain ⟨-, hdr, -⟩ := separate_iff.1 hs
  obtain ⟨es₁, trace₁, load⟩ := load_recorded (z := .b) (s := s) (a := s.word d) (dsp d) rfl
  obtain ⟨es, trace, load'⟩ := load_after (z := .b) (s := s)
    (a := tableAddress (s.word p) (s.peek (dsp d) (s.word d))) (dsp p) rfl es₁ trace₁
  refine ⟨es, trace, (bind_goesOn load).trans ((bind_goesOn load').trans ?_)⟩
  simp only [countDown_stepPointer hdr, State.recorded_setByte, State.setByte_rh1_word hd, State.setByte_rh1_word hr,
    State.recorded_setWord, State.recorded_word, State.word_setWord_self, State.recorded_fcw, State.setWord_fcw,
    State.setByte_fcw, State.recorded_setFcw]
  rfl

theorem State.tested_word_count : (s.tested dir d p r).word r = s.word r - 1 :=
  counted_word (by rw [State.setWord_fcw, State.setByte_fcw]) _

theorem State.tested_cfg : (s.tested dir d p r).cfg = s.cfg := by simp [State.tested]

theorem translateTestOnce_answers (hs : testSeparate d p r = true) :
    Answers (answer (translateTestOnce dir d p r s)) (s.tested dir d p r) := by
  obtain ⟨es, trace, e⟩ := translateTestIter_recorded hs
  rw [translateTestOnce, require_goesOn hs, bind_goesOn e]
  exact recorded_answers ..

theorem translateTestRepeat_answers (hs : testSeparate d p r = true) :
    Answers (answer (translateTestRepeat dir d p r s))
      ((s.tested dir d p r).again (scanEnds s.cfg.trtRepeatUntil (s.entry d p == 0) || s.last r)) := by
  obtain ⟨es, trace, e⟩ := translateTestIter_recorded hs
  rw [translateTestRepeat, require_goesOn hs, bind_goesOn e]
  refine repeatUnless_answers ?_ ..
  rw [State.recorded_word, State.tested_word_count, State.recorded_cfg, State.tested_cfg]
  rfl

/-- Settles O50: `scanEnds` is the end of the scan that the statement spells out. -/
theorem translateResult : Obligations.TranslateResult := fun d p r _ hs =>
  ⟨translateOnce_answers hs, translateOnce_answers hs, translateRepeat_answers hs, translateRepeat_answers hs,
    fun hd hp hr =>
      have ht : testSeparate d p r = true := testSeparate_iff.2 ⟨hs, hd, hp, hr⟩
      ⟨translateTestOnce_answers ht, translateTestOnce_answers ht,
        translateTestRepeat_answers ht, translateTestRepeat_answers ht⟩⟩

end

end Sys2Proof.Machine
end

section
/-! LDIRB as a whole (R664, R667, R652), by induction on the count. `BytesCopied` says what a number of iterations leaves;
it composes, where the blocks do not overlap, since no byte of the copy is written twice and no source byte at all. -/

namespace Sys2Proof.Machine

section
variable {d p r : Reg} {m n : Nat} {e : Word} {i : Instr} {s t u : State}

/-! ### Bytes copied by a number of iterations -/

/-- From `s` to `t` the `n` bytes from where `p` points were copied to where `d` points, with the pointers past them; of
the rest of memory nothing changed, and of FCW only Z and V, which tell the end of the count. -/
structure BytesCopied (d p r : Reg) (n : Nat) (s t : State) : Prop where
  cfg : t.cfg = s.cfg
  fcw : t.fcw = { s.fcw with z := t.word r == 0, v := t.word r == 0 }
  count : t.word r = s.word r - BitVec.ofNat 16 n
  source : t.word p = s.word p + BitVec.ofNat 16 n
  dest : t.word d = s.word d + BitVec.ofNat 16 n
  copied : ∀ j < n, t.peek (dsp d) (s.word d + BitVec.ofNat 16 j) = s.peek (dsp p) (s.word p + BitVec.ofNat 16 j)
  kept : ∀ x, (∀ j < n, x ≠ s.key (dsp d) (s.word d + BitVec.ofNat 16 j)) → Memory.read t.mem x = Memory.read s.mem x

/-- The `n` bytes where `p` points and the `n` bytes where `d` points have no byte in common. -/
def Apart (d p : Reg) (n : Nat) (s : State) : Prop :=
  ∀ j < n, ∀ k < n,
    s.key (dsp p) (s.word p + BitVec.ofNat 16 j) ≠ s.key (dsp d) (s.word d + BitVec.ofNat 16 k)

theorem add_ofNat_zero (a : Word) : a + BitVec.ofNat 16 0 = a := BitVec.add_zero _

theorem add_ofNat_add_ofNat (a : Word) (m k : Nat) :
    a + BitVec.ofNat 16 m + BitVec.ofNat 16 k = a + BitVec.ofNat 16 (m + k) := by
  rw [BitVec.add_assoc, BitVec.ofNat_add]

/-- Fewer than 2^16 bytes apart, two places in a block are different. -/
theorem State.key_add_ofNat_ne (s : State) (sp : Space) (a : Word) {j k : Nat} (h : j < k) (hk : k < 65536) :
    s.key sp (a + BitVec.ofNat 16 j) ≠ s.key sp (a + BitVec.ofNat 16 k) := by
  rw [ne_eq, State.key_inj, BitVec.add_right_inj]
  bv_omega

theorem BytesCopied.key (h : BytesCopied d p r n s t) (sp : Space) (a : Word) : t.key sp a = s.key sp a := by
  rw [State.key, State.key, h.cfg, h.fcw]

/-- The bytes that follow are apart as they were. -/
theorem BytesCopied.apart (h : BytesCopied d p r m s t) (ha : Apart d p (m + n) s) : Apart d p n t := by
  intro j hj k hk
  rw [h.key, h.key, h.source, h.dest, add_ofNat_add_ofNat, add_ofNat_add_ofNat]
  exact ha (m + j) (by omega) (m + k) (by omega)

/-- Bytes copied later are at other places of the copy. -/
theorem BytesCopied.peek_earlier (h : BytesCopied d p r m s u) (h' : BytesCopied d p r n u t) (hmn : m + n ≤ 65536)
    {j : Nat} (hj : j < m) :
    t.peek (dsp d) (s.word d + BitVec.ofNat 16 j) = s.peek (dsp p) (s.word p + BitVec.ofNat 16 j) := by
  have later : ∀ k < n, t.key (dsp d) (s.word d + BitVec.ofNat 16 j) ≠
      u.key (dsp d) (u.word d + BitVec.ofNat 16 k) := fun k hk => by
    rw [h'.key, h.dest, add_ofNat_add_ofNat]
    exact u.key_add_ofNat_ne _ _ (by omega) (by omega)
  rw [← h.copied j hj, State.peek, h'.kept _ later, h'.key]
  rfl

/-- Bytes copied earlier were not stored over the source of the later ones. -/
theorem BytesCopied.peek_later (h : BytesCopied d p r m s u) (h' : BytesCopied d p r n u t)
    (ha : Apart d p (m + n) s) {k : Nat} (hk : k < n) :
    t.peek (dsp d) (s.word d + BitVec.ofNat 16 (m + k)) = s.peek (dsp p) (s.word p + BitVec.ofNat 16 (m + k)) := by
  have earlier : ∀ j < m, u.key (dsp p) (s.word p + BitVec.ofNat 16 (m + k)) ≠
      s.key (dsp d) (s.word d + BitVec.ofNat 16 j) := fun j hj => by
    rw [h.key]
    exact ha (m + k) (by omega) j (by omega)
  have copied := h'.copied k hk
  rw [h.dest, h.source, add_ofNat_add_ofNat, add_ofNat_add_ofNat] at copied
  rw [copied, State.peek, h.kept _ earlier, h.key]
  rfl

theorem BytesCopied.trans (hmn : m + n ≤ 65536) (ha : Apart d p (m + n) s) (h : BytesCopied d p r m s u)
    (h' : BytesCopied d p r n u t) : BytesCopied d p r (m + n) s t where
  cfg := h'.cfg.trans h.cfg
  fcw := by rw [h'.fcw, h.fcw]
  count := by rw [h'.count, h.count, BitVec.ofNat_add, BitVec.sub_sub]
  source := by rw [h'.source, h.source, add_ofNat_add_ofNat]
  dest := by rw [h'.dest, h.dest, add_ofNat_add_ofNat]
  copied j hj := by
    by_cases hjm : j < m
    · exact h.peek_earlier h' hmn hjm
    · obtain ⟨k, rfl⟩ := Nat.exists_eq_add_of_le (Nat.le_of_not_lt hjm)
      exact h.peek_later h' ha (by omega)
  kept x hx := by
    have later : ∀ k < n, x ≠ u.key (dsp d) (u.word d + BitVec.ofNat 16 k) := fun k hk => by
      rw [h.key, h.dest, add_ofNat_add_ofNat]
      exact hx (m + k) (by omega)
    exact (h'.kept x later).trans (h.kept x fun j hj => hx j (by omega))

/-- One iteration copies one byte. -/
theorem bytesCopied_copied (hs : separate d p r = true) (s : State) :
    BytesCopied d p r 1 s (s.copied .b .up d p r) := by
  obtain ⟨hdp, hdr, hpr⟩ := separate_iff.1 hs
  have count : (s.copied .b .up d p r).word r = s.word r - 1 := by rw [State.copied_word, if_pos rfl]
  have peeked : (s.copied .b .up d p r).peek (dsp d) (s.word d) = s.peek (dsp p) (s.word p) := by
    rw [State.peek, State.copied_mem, State.key, State.copied_cfg]
    exact State.valueAt_putAt_self .b (dsp d) (s.word d) (s.peek (dsp p) (s.word p)) s
  refine ⟨State.copied_cfg, ?_, count, ?_, ?_, fun j hj => ?_, fun x hx => ?_⟩
  · rw [count]
    rfl
  · rw [State.copied_word, if_neg hpr, if_neg hdp.symm, if_pos rfl]
    rfl
  · rw [State.copied_word, if_neg hdr, if_pos rfl]
    rfl
  · obtain rfl : j = 0 := by omega
    rwa [add_ofNat_zero, add_ofNat_zero]
  · have hx : x ≠ s.key (dsp d) (s.word d) := by simpa using hx 0 Nat.one_pos
    rw [State.copied_mem]
    exact State.read_putAt_of_not_covers _ (by simpa [State.covers] using hx)

/-! ### Repetition -/

/-- `s` where the next iteration of a block instruction that ends at `e` begins. -/
def State.atIteration (e : Word) (s : State) : State := { s with pc := e, repeating := false }

section
variable (n : Nat) (h : Answers (exec i (s.atIteration e)) u)
include h

theorem repeatBlock_ends (hu : u.repeating = false) :
    ∃ bus trace, repeatBlock i e (n + 1) s = .next { u with bus := bus, trace := trace } := by
  obtain ⟨bus, trace, h⟩ := h
  refine ⟨bus, trace, ?_⟩
  rw [repeatBlock, ← State.atIteration, h]
  simp [hu]

theorem repeatBlock_goesOn (hu : u.repeating = true) :
    ∃ bus trace, repeatBlock i e (n + 1) s = repeatBlock i e n { u with bus := bus, trace := trace } := by
  obtain ⟨bus, trace, h⟩ := h
  refine ⟨bus, trace, ?_⟩
  rw [repeatBlock, ← State.atIteration, h]
  simp [hu]

end

/-- `BytesCopied` does not look at PC, the bus record or the points. -/
theorem BytesCopied.iterated (h : BytesCopied d p r n (s.atIteration e) t) (done : Bool) (bus : List BusEvent)
    (trace : Option (List Point)) : BytesCopied d p r n s { t.again done with bus := bus, trace := trace } := by
  cases done <;> exact ⟨h.cfg, h.fcw, h.count, h.source, h.dest, h.copied, h.kept⟩

theorem ldirb_answers (hs : separate d p r = true) : Answers (exec (.ldirb d p r .f) s)
    ((s.copied .b .up d p r).again (s.last r)) := copyRepeat_answers rfl hs rfl rfl

/-- The iteration that ends the count ends the copy, with PC past LDIRB (R652). -/
theorem repeatBlock_ldirb_last (hs : separate d p r = true) (e : Word) (n : Nat) (h : s.last r = true) :
    ∃ t, repeatBlock (.ldirb d p r .f) e (n + 1) s = .next t ∧ t.pc = e ∧ BytesCopied d p r 1 s t := by
  have iteration := ldirb_answers (s := s.atIteration e) hs
  rw [show (s.atIteration e).last r = true from h] at iteration
  obtain ⟨bus, trace, run⟩ := repeatBlock_ends n iteration State.copied_repeating
  exact ⟨_, run, State.copied_pc, (bytesCopied_copied hs (s.atIteration e)).iterated true bus trace⟩

/-- Any other iteration leaves LDIRB to go on. -/
theorem repeatBlock_ldirb_next (hs : separate d p r = true) (e : Word) (n : Nat) (h : s.last r = false) :
    ∃ u, repeatBlock (.ldirb d p r .f) e (n + 1) s = repeatBlock (.ldirb d p r .f) e n u ∧
      BytesCopied d p r 1 s u := by
  have iteration := ldirb_answers (s := s.atIteration e) hs
  rw [show (s.atIteration e).last r = false from h] at iteration
  obtain ⟨bus, trace, run⟩ := repeatBlock_goesOn n iteration rfl
  exact ⟨_, run, (bytesCopied_copied hs (s.atIteration e)).iterated false bus trace⟩

theorem ofNat_succ_sub_one (n : Nat) : BitVec.ofNat 16 (n + 1) - 1 = BitVec.ofNat 16 n := by
  rw [BitVec.ofNat_add]
  exact BitVec.add_sub_cancel ..

/-- As many iterations as the count says end the copy. -/
theorem repeatBlock_ldirb (hs : separate d p r = true) (e : Word) (n : Nat) (s : State) (hn : n < 65536)
    (count : s.word r = BitVec.ofNat 16 (n + 1)) (ha : Apart d p (n + 1) s) :
    ∃ t, repeatBlock (.ldirb d p r .f) e (n + 1) s = .next t ∧ t.pc = e ∧ BytesCopied d p r (n + 1) s t := by
  induction n generalizing s with
  | zero => exact repeatBlock_ldirb_last hs e 0 (by rw [State.last, count]; rfl)
  | succ n ih =>
    have more : s.last r = false := by
      rw [State.last, count, ofNat_succ_sub_one, beq_eq_false_iff_ne]
      bv_omega
    obtain ⟨u, run, first⟩ := repeatBlock_ldirb_next hs e (n + 1) more
    have count' : u.word r = BitVec.ofNat 16 (n + 1) := by
      rw [first.count, count]
      exact ofNat_succ_sub_one _
    have first_rest : n + 1 + 1 = 1 + (n + 1) := Nat.add_comm ..
    rw [first_rest] at ha
    obtain ⟨t, run', pc, rest⟩ := ih u (by omega) count' (first.apart ha)
    exact ⟨t, run.trans run', pc, first_rest ▸ first.trans (by omega) ha rest⟩

/-- A count of 0 stands for 65536 (R650): either way it is the number of iterations modulo 2^16. -/
theorem iterations_eq_succ (c : Word) :
    ∃ m < 65536, (if c = 0 then 65536 else c.toNat) = m + 1 ∧ c = BitVec.ofNat 16 (m + 1) := by
  by_cases hc : c = 0
  · exact ⟨65535, by decide, if_pos hc, hc⟩
  · refine ⟨c.toNat - 1, by omega, ?_, ?_⟩
    · rw [if_neg hc]
      bv_omega
    · bv_omega

/-- Settles O51: the whole count, of which nothing is left. -/
theorem ldirbCopiesBlock : Obligations.LdirbCopiesBlock := by
  intro d p r e s hs n apart
  obtain ⟨m, hm, hn, count⟩ := iterations_eq_succ (s.word r)
  change n = m + 1 at hn
  rw [hn] at apart ⊢
  obtain ⟨t, run, pc, h⟩ := repeatBlock_ldirb hs e m s hm count apart
  have ended : t.word r = 0 := by
    rw [h.count, count]
    exact BitVec.sub_self _
  refine ⟨t, run, pc, h.copied, h.kept, ended, h.source, h.dest, ?_⟩
  rw [h.fcw, ended]
  rfl

end

end Sys2Proof.Machine
end

section
/-! Input and output (R752 to R757, R760 to R765). What a port transaction leaves, what the single operations and the
iterations answer at every operand size and in either I/O space, and then the instructions, which add the guard of R1030,
the check of the registers and, when they repeat, where PC goes (R652). -/

namespace Sys2Proof.Machine

section
variable {i : Instr} {words : Word} {body iter : State → Comp State} {z : Size} {sp : IoSpace} {dir : Direction}
  {c d p r : Reg} {cc : Cond} {s t : State} {es : List BusEvent}

/-! ### Port transactions (R91) -/

/-- A port read consumes data lines of the environment, and nothing else of the state. -/
theorem takePort_spec (s : State) :
    ∃ ports free, (takePort s).2 = { s with portIn := ports, freeCount := free } := by
  unfold takePort
  split <;> exact ⟨_, _, rfl⟩

@[simp] theorem takePort_fcw (s : State) : (takePort s).2.fcw = s.fcw := by
  obtain ⟨ports, free, e⟩ := takePort_spec s
  rw [e]

@[simp] theorem takePort_word (s : State) (c : Reg) : (takePort s).2.word c = s.word c := by
  obtain ⟨ports, free, e⟩ := takePort_spec s
  rw [e]
  rfl

@[simp] theorem takePort_reaches (s : State) (z : Size) (a : Word) : (takePort s).2.reaches z a = s.reaches z a := by
  obtain ⟨ports, free, e⟩ := takePort_spec s
  rw [e]
  rfl

@[simp] theorem takePort_writeEvents (s : State) (z : Size) (sp : Space) (a : Word) (v : BitVec z.bits) :
    (takePort s).2.writeEvents z sp a v = s.writeEvents z sp a v := by
  simp only [State.writeEvents, takePort_fcw]

theorem ioRead_recorded (z : Size) (sp : IoSpace) (port : Word) (s : State) : ∃ trace, ioRead z sp port s =
    (portValue z port (takePort s).1, (takePort s).2.recorded [s.portRead z sp port] trace) := by
  cases z <;> exact ⟨_, rfl⟩

/-- A write to a port of a byte or a word; long ports do not exist. -/
theorem ioWrite_recorded (hz : (z != .l) = true) (sp : IoSpace) (port : Word) (v : BitVec z.bits) (s : State) :
    ∃ trace, ioWrite z sp port v s = s.recorded [s.portWrite z sp port v] trace := by
  cases z with
  | b | w => exact ⟨_, rfl⟩
  | l => cases hz

@[simp] theorem State.recorded_portWrite (es : List BusEvent) (trace : Option (List Point)) (z : Size) (sp : IoSpace)
    (port : Word) (v : BitVec z.bits) (s : State) :
    (s.recorded es trace).portWrite z sp port v = s.portWrite z sp port v := rfl

theorem State.bus_setReg (z : Size) (c : Reg) (v : BitVec z.bits) (s : State) : (s.setReg z c v).bus = s.bus := by
  cases z <;> simp [State.setReg]

theorem State.recorded_setReg (es : List BusEvent) (trace : Option (List Point)) (z : Size) (c : Reg)
    (v : BitVec z.bits) (s : State) : (s.recorded es trace).setReg z c v = (s.setReg z c v).recorded es trace := by
  rw [State.recorded, State.recorded, State.bus_setReg, State.setReg_bus]

/-! ### The guard of R1030 -/

/-- Where a privileged instruction may run, its body says what it answers and which transactions it makes. -/
theorem RunsWith.ofBody (he : exec i s = answer (privileged i words body s))
    (hb : ∃ trace, body s = .ok (t.recorded es trace)) : RunsWith i s t es := fun ha => by
  obtain ⟨trace, e⟩ := hb
  rw [he, privileged_eq, if_pos ha, e]
  exact ⟨trace, rfl⟩

/-! ### IN, SIN, OUT and SOUT (R752, R760) -/

theorem input_recorded (hc : regFits z c = true) (sp : IoSpace) (port : Word) (s : State) :
    ∃ trace, input z sp c port s =
      .ok (((takePort s).2.setReg z c (portValue z port (takePort s).1)).recorded [s.portRead z sp port] trace) := by
  obtain ⟨trace, e⟩ := ioRead_recorded z sp port s
  refine ⟨trace, ?_⟩
  rw [input, e, ← State.recorded_setReg]
  exact (writeReg_eq ..).trans (if_pos hc)

theorem output_recorded (hz : (z != .l) = true) (sp : IoSpace) (port : Word) (c : Reg) (s : State) :
    ∃ trace, output z sp port c s = .ok (s.recorded [s.portWrite z sp port (s.reg z c)] trace) := by
  have hc : regFits z c = true := Bool.or_eq_true_iff.2 (.inl hz)
  obtain ⟨trace, e⟩ := ioWrite_recorded hz sp port (s.reg z c) s
  exact ⟨trace, (bind_goesOn (readReg_fits hc)).trans (congrArg Except.ok e)⟩

/-- Settles O52: a byte or word code always names a register. -/
theorem portResult : Obligations.PortResult := fun _ s =>
  ⟨fun p => ⟨.ofBody rfl (input_recorded rfl .standard (portOf p s) s),
      .ofBody rfl (input_recorded rfl .standard (portOf p s) s),
      .ofBody rfl (output_recorded rfl .standard (portOf p s) _ s),
      .ofBody rfl (output_recorded rfl .standard (portOf p s) _ s)⟩,
    fun port => ⟨.ofBody rfl (input_recorded rfl .special port s), .ofBody rfl (input_recorded rfl .special port s),
      .ofBody rfl (output_recorded rfl .special port _ s), .ofBody rfl (output_recorded rfl .special port _ s)⟩⟩

/-! ### One iteration (R757, R765) -/

/-- The port is read before memory is written; the pointer and the count are those before both. -/
theorem inputIter_recorded (hs : separate d p r = true) (hd : s.reaches z (s.word d) = true) :
    ∃ trace, inputIter z sp dir d p r s = .ok ((s.inputted z dir d p r).recorded
      (s.writeEvents z (dsp d) (s.word d) (portValue z (s.word p) (takePort s).1) ++ [s.portRead z sp (s.word p)])
      trace) := by
  obtain ⟨-, hdr, -⟩ := separate_iff.1 hs
  obtain ⟨trace₁, read⟩ := ioRead_recorded z sp (s.word p) s
  obtain ⟨trace, store⟩ := store_events (s := (takePort s).2.recorded [s.portRead z sp (s.word p)] trace₁) (dsp d)
    (portValue z (s.word p) (takePort s).1) (by simpa using hd)
  rw [State.recorded_putAt, State.recorded_recorded, State.recorded_writeEvents, takePort_writeEvents] at store
  refine ⟨trace, ?_⟩
  rw [inputIter, read]
  simp only [State.recorded_word, takePort_word]
  rw [bind_goesOn store]
  simp only [countDown_stepPointer hdr, State.recorded_setWord, State.recorded_word, State.putAt_word, takePort_word,
    State.word_setWord_self, State.recorded_fcw, State.setWord_fcw, State.putAt_fcw, takePort_fcw,
    State.recorded_setFcw]
  rfl

/-- Memory is read before the port is written; the pointer and the count are those before both. -/
theorem outputIter_recorded (hz : (z != .l) = true) (hs : separate d p r = true) (hp : s.reaches z (s.word p) = true) :
    ∃ trace, outputIter z sp dir d p r s = .ok ((s.outputted z dir p r).recorded
      (s.portWrite z sp (s.word d) (s.valueAt z (dsp p) (s.word p)) :: s.readEvents z (dsp p) (s.word p)) trace) := by
  obtain ⟨-, -, hpr⟩ := separate_iff.1 hs
  obtain ⟨trace₁, load⟩ := load_events (dsp p) hp
  obtain ⟨trace, write⟩ := ioWrite_recorded hz sp (s.word d) (s.valueAt z (dsp p) (s.word p))
    (s.recorded (s.readEvents z (dsp p) (s.word p)) trace₁)
  refine ⟨trace, (bind_goesOn load).trans ?_⟩
  simp only [State.recorded_word, write, State.recorded_recorded, State.recorded_portWrite,
    countDown_stepPointer hpr, State.recorded_setWord, State.word_setWord_self, State.recorded_fcw, State.setWord_fcw,
    State.recorded_setFcw]
  rfl

/-! ### What the end of a repeating form looks at -/

theorem State.inputted_word_count : (s.inputted z dir d p r).word r = s.word r - 1 :=
  counted_word (by simp [State.putAt_fcw]) _

theorem State.outputted_word_count : (s.outputted z dir p r).word r = s.word r - 1 :=
  counted_word (by simp) _

/-- V of a block input or output comes from the count, and no condition it may have looks at it (R700). -/
theorem condHolds_blockIo (hc : blockIoCondition cc = true) (k : Fcw) (overflow : Bool) :
    condHolds cc { k with v := overflow } = condHolds cc k := by
  cases cc with
  | f | t | mi | pl | c | nc | ule | ugt | z | nz => rfl
  | _ => cases hc

/-! ### From an iteration to its instruction -/

theorem RunsWith.ofIoOnce (hs : separate d p r = true) (h : ∃ trace, iter s = .ok (t.recorded es trace))
    (he : exec i s = answer (ioOnce i iter d p r s)) : RunsWith i s t es := by
  obtain ⟨trace, e⟩ := h
  exact .ofBody he ⟨trace, (require_goesOn hs).trans e⟩

/-- The instruction is over, or PC goes back to its first word (R652); its condition is that of the flags before the
iteration (R700). -/
theorem RunsWith.ofIoRepeat (hs : separate d p r = true) (hc : blockIoCondition cc = true)
    (count : t.word r = s.word r - 1) (flags : t.fcw = { s.fcw with v := s.last r })
    (h : ∃ trace, iter s = .ok (t.recorded es trace)) (he : exec i s = answer (ioRepeat i iter d p r cc s)) :
    RunsWith i s (t.again (condHolds cc s.fcw || s.last r)) es := by
  obtain ⟨trace, e⟩ := h
  refine .ofBody he ⟨trace, (require_goesOn hc).trans ((require_goesOn hs).trans ((bind_goesOn e).trans ?_))⟩
  rw [State.recorded_fcw, State.recorded_word, flags, count, condHolds_blockIo hc]
  show Except.ok (repeatUnless (condHolds cc s.fcw || s.last r) _) = _
  cases condHolds cc s.fcw || s.last r <;> rfl

theorem inputOnce_runsWith (hs : separate d p r = true) (hd : s.reaches z (s.word d) = true)
    (he : exec i s = answer (ioOnce i (inputIter z sp dir d p r) d p r s)) :
    RunsWith i s (s.inputted z dir d p r)
      (s.writeEvents z (dsp d) (s.word d) (portValue z (s.word p) (takePort s).1) ++ [s.portRead z sp (s.word p)]) :=
  .ofIoOnce hs (inputIter_recorded hs hd) he

theorem inputRepeat_runsWith (hs : separate d p r = true) (hd : s.reaches z (s.word d) = true)
    (hc : blockIoCondition cc = true)
    (he : exec i s = answer (ioRepeat i (inputIter z sp dir d p r) d p r cc s)) :
    RunsWith i s ((s.inputted z dir d p r).again (condHolds cc s.fcw || s.last r))
      (s.writeEvents z (dsp d) (s.word d) (portValue z (s.word p) (takePort s).1) ++ [s.portRead z sp (s.word p)]) :=
  .ofIoRepeat hs hc State.inputted_word_count rfl (inputIter_recorded hs hd) he

theorem outputOnce_runsWith (hz : (z != .l) = true) (hs : separate d p r = true) (hp : s.reaches z (s.word p) = true)
    (he : exec i s = answer (ioOnce i (outputIter z sp dir d p r) d p r s)) :
    RunsWith i s (s.outputted z dir p r)
      (s.portWrite z sp (s.word d) (s.valueAt z (dsp p) (s.word p)) :: s.readEvents z (dsp p) (s.word p)) :=
  .ofIoOnce hs (outputIter_recorded hz hs hp) he

theorem outputRepeat_runsWith (hz : (z != .l) = true) (hs : separate d p r = true) (hp : s.reaches z (s.word p) = true)
    (hc : blockIoCondition cc = true)
    (he : exec i s = answer (ioRepeat i (outputIter z sp dir d p r) d p r cc s)) :
    RunsWith i s ((s.outputted z dir p r).again (condHolds cc s.fcw || s.last r))
      (s.portWrite z sp (s.word d) (s.valueAt z (dsp p) (s.word p)) :: s.readEvents z (dsp p) (s.word p)) :=
  .ofIoRepeat hs hc State.outputted_word_count rfl (outputIter_recorded hz hs hp) he

/-- Settles O53: a byte can be accessed at every address (R86). -/
theorem blockPortResult : Obligations.BlockPortResult := by
  refine ⟨fun d p r s hs => ⟨fun hd => ?_, ?_⟩, fun d p r s hs => ⟨fun hp => ?_, ?_⟩⟩
  · exact ⟨inputOnce_runsWith hs hd rfl, inputOnce_runsWith hs hd rfl, inputOnce_runsWith hs hd rfl,
      inputOnce_runsWith hs hd rfl, fun _ hc => ⟨inputRepeat_runsWith hs hd hc rfl, inputRepeat_runsWith hs hd hc rfl,
        inputRepeat_runsWith hs hd hc rfl, inputRepeat_runsWith hs hd hc rfl⟩⟩
  · exact ⟨inputOnce_runsWith hs rfl rfl, inputOnce_runsWith hs rfl rfl, inputOnce_runsWith hs rfl rfl,
      inputOnce_runsWith hs rfl rfl, fun _ hc => ⟨inputRepeat_runsWith hs rfl hc rfl,
        inputRepeat_runsWith hs rfl hc rfl, inputRepeat_runsWith hs rfl hc rfl, inputRepeat_runsWith hs rfl hc rfl⟩⟩
  · exact ⟨outputOnce_runsWith rfl hs hp rfl, outputOnce_runsWith rfl hs hp rfl,
      outputOnce_runsWith rfl hs hp rfl, outputOnce_runsWith rfl hs hp rfl,
      fun _ hc => ⟨outputRepeat_runsWith rfl hs hp hc rfl, outputRepeat_runsWith rfl hs hp hc rfl,
        outputRepeat_runsWith rfl hs hp hc rfl, outputRepeat_runsWith rfl hs hp hc rfl⟩⟩
  · exact ⟨outputOnce_runsWith rfl hs rfl rfl, outputOnce_runsWith rfl hs rfl rfl,
      outputOnce_runsWith rfl hs rfl rfl, outputOnce_runsWith rfl hs rfl rfl,
      fun _ hc => ⟨outputRepeat_runsWith rfl hs rfl hc rfl, outputRepeat_runsWith rfl hs rfl hc rfl,
        outputRepeat_runsWith rfl hs rfl hc rfl, outputRepeat_runsWith rfl hs rfl hc rfl⟩⟩

end

end Sys2Proof.Machine
end
section
/-! What the entry sequence of a trap or an interrupt leaves (R1010, R1013). -/

namespace Sys2Proof.Machine

section
variable {a b : Word} {s t : State} {e : Event}

/-! ### Words beside each other -/

theorem evenAddress_getLsbD_zero (a : Word) : (evenAddress a).getLsbD 0 = false := by
  simp [evenAddress]

/-- No second byte of a word is the first byte of a word. -/
theorem evenAddress_ne_add_one (a b : Word) : evenAddress a ≠ evenAddress b + 1 := fun h => by
  have odd := evenAddress_getLsbD_zero a
  rw [h, getLsbD_zero_add, evenAddress_getLsbD_zero] at odd
  exact absurd odd (by decide)

/-- A store of a word leaves every other word of its space (R83, R86). -/
theorem State.valueAt_putAt_word_ne (h : evenAddress b ≠ evenAddress a) (sp : Space) (v : Word) (s : State) :
    (s.putAt .w sp a v).valueAt .w sp b = s.valueAt .w sp b := by
  have second : evenAddress b + 1 ≠ evenAddress a + 1 := fun e => h (add_right_cancel e)
  simp only [State.putAt, State.valueAt, State.peekWord, State.peek_pokeWord, h, second, evenAddress_ne_add_one,
    (evenAddress_ne_add_one _ _).symm, if_false]

/-- What stands in memory does not depend on the flags, PC or the registers. -/
theorem State.peekWord_congr (cfg : t.cfg = s.cfg) (sys : t.fcw.sys = s.fcw.sys) (mem : t.mem = s.mem) (sp : Space)
    (a : Word) : t.peekWord sp a = s.peekWord sp a := by
  simp only [State.peekWord, State.peek, State.key, cfg, sys, mem]

theorem State.covers_congr (cfg : t.cfg = s.cfg) (sys : t.fcw.sys = s.fcw.sys) (z : Size) (sp : Space) (a : Word)
    (k : Nat) : t.covers z sp a k = s.covers z sp a k := by
  simp only [State.covers, State.key, cfg, sys]

theorem State.putAt_covers (z y : Size) (sp sp' : Space) (a b : Word) (v : BitVec y.bits) (k : Nat) (s : State) :
    (s.putAt y sp' b v).covers z sp a k = s.covers z sp a k :=
  State.covers_congr (State.putAt_cfg ..) (congrArg Fcw.sys (State.putAt_fcw ..)) z sp a k

/-! ### The three pushes -/

/-- The registers and the mode of an entry sequence, before anything is stored (R1010). -/
def State.lowered (s : State) : State :=
  { s with fcw := { s.fcw with sys := true }, regs := s.regs.set 15 (s.regs[15] - 6) }

theorem State.pushed_eq (savedPc ident : Word) (s : State) : s.pushed savedPc ident =
    ((s.lowered.putAt .w .stack (s.regs[15] - 2) savedPc).putAt .w .stack (s.regs[15] - 4) s.fcwWord).putAt .w .stack
      (s.regs[15] - 6) ident := rfl

theorem State.pushed_fcw (savedPc ident : Word) (s : State) :
    (s.pushed savedPc ident).fcw = { s.fcw with sys := true } := by
  simp only [State.pushed_eq, State.putAt_fcw, State.lowered]

/-- The three words of an entry sequence stand at three even addresses (R1010, R86). -/
theorem pushed_addresses (sp : Word) : evenAddress (sp - 2) ≠ evenAddress (sp - 4) ∧
    evenAddress (sp - 2) ≠ evenAddress (sp - 6) ∧ evenAddress (sp - 4) ≠ evenAddress (sp - 6) := by
  have next (a : Word) : evenAddress a = evenAddress (a - 2) + 2 := by
    rw [← evenAddress_second, BitVec.sub_add_cancel]
  have h₂ := sub_two_sub_two sp ▸ next (sp - 2)
  have h₄ := sub_four_sub_two sp ▸ next (sp - 4)
  rw [h₂, h₄]
  generalize evenAddress (sp - 6) = a
  refine ⟨?_, ?_, ?_⟩ <;> bv_omega

/-- From the new stack pointer upward: the identifier, the old FCW, the saved PC (R1010). -/
theorem State.pushed_valueAt (savedPc ident : Word) (s : State) :
    (s.pushed savedPc ident).valueAt .w .stack (s.regs[15] - 2) = savedPc ∧
    (s.pushed savedPc ident).valueAt .w .stack (s.regs[15] - 4) = s.fcwWord ∧
    (s.pushed savedPc ident).valueAt .w .stack (s.regs[15] - 6) = ident := by
  obtain ⟨h₂₄, h₂₆, h₄₆⟩ := pushed_addresses s.regs[15]
  rw [State.pushed_eq]
  refine ⟨?_, ?_, State.valueAt_putAt_self ..⟩
  · rw [State.valueAt_putAt_word_ne h₂₆, State.valueAt_putAt_word_ne h₂₄, State.valueAt_putAt_self]
  · rw [State.valueAt_putAt_word_ne h₄₆, State.valueAt_putAt_self]

/-- The pushes leave every byte but those of their three words (R1010). -/
theorem State.read_pushed (savedPc ident : Word) {k : Nat} (cfg : t.cfg = s.cfg) (sys : t.fcw.sys = true)
    (h₂ : t.covers .w .stack (s.regs[15] - 2) k = false) (h₄ : t.covers .w .stack (s.regs[15] - 4) k = false)
    (h₆ : t.covers .w .stack (s.regs[15] - 6) k = false) :
    Memory.read (s.pushed savedPc ident).mem k = Memory.read s.mem k := by
  rw [State.covers_congr (s := s.lowered) cfg sys] at h₂ h₄ h₆
  rw [State.pushed_eq, State.read_putAt_of_not_covers, State.read_putAt_of_not_covers,
    State.read_putAt_of_not_covers _ h₂]
  · rfl
  · rwa [State.putAt_covers]
  · rwa [State.putAt_covers, State.putAt_covers]

/-! ### The entry sequence -/

/-- An entry sequence that can use the system stack completes. -/
theorem enter_answers (h : s.entryReady = true) (e : Event) (savedPc ident : Word) :
    Answers (answer (enter e savedPc ident s)) (s.entered e savedPc ident) := by
  obtain ⟨es, trace, completes⟩ := enter_events e savedPc ident h
  exact ⟨_, trace, answer_next.2 completes⟩

theorem State.entered_cfg (e : Event) (savedPc ident : Word) (s : State) :
    (s.entered e savedPc ident).cfg = s.cfg := rfl
theorem State.entered_mem (e : Event) (savedPc ident : Word) (s : State) :
    (s.entered e savedPc ident).mem = (s.pushed savedPc ident).mem := rfl

/-- With the mode of the pushes, memory reads after an entry sequence as after its pushes (R1021). -/
theorem State.entered_peekWord (e : Event) (savedPc ident : Word) (k : Fcw) (hk : k.sys = true) (sp : Space) (a : Word)
    (s : State) : ((s.entered e savedPc ident).setFcw k).peekWord sp a = (s.pushed savedPc ident).peekWord sp a := by
  apply State.peekWord_congr
  · rw [State.setFcw_cfg, State.entered_cfg, State.pushed_cfg]
  · rw [State.setFcw_fcw, State.pushed_fcw, hk]
  · exact State.entered_mem e savedPc ident s

/-- Settles O11: the pushes by `pushed_valueAt` and `read_pushed`, the status by the offsets of the event. -/
theorem entrySequence : Obligations.EntrySequence := by
  refine ⟨fun e savedPc ident s h => enter_answers h e savedPc ident, fun e savedPc ident s _ => ?_⟩
  intro t u sp psa
  have reads (space : Space) (a : Word) : u.peekWord space a = (s.pushed savedPc ident).peekWord space a :=
    State.entered_peekWord e savedPc ident { s.fcw with sys := true } rfl space a s
  obtain ⟨pc, fcw, id⟩ := s.pushed_valueAt savedPc ident
  refine ⟨rfl, rfl, rfl, rfl, rfl, (reads ..).trans pc, (reads ..).trans fcw, (reads ..).trans id, fun k => ?_, ?_⟩
  · exact State.read_pushed (t := u) savedPc ident rfl rfl
  · have status : t.fcw = Fcw.legal s.cfg (u.peekWord .prog (psa + e.fcwOffset)) ∧
        t.pc = u.peekWord .prog (psa + e.pcOffset ident) := by
      rw [reads, reads]
      exact ⟨rfl, rfl⟩
    cases e with
    | extended | privileged | systemCall | nmi | nvi | vi => exact status

end

end Sys2Proof.Machine
end
section
/-! Traps: the guards of privileged and extended instructions, and a first word that traps (R950, R951, R1003, R1009,
R1030). -/

namespace Sys2Proof.Machine

section
variable {i : Instr} {words w : Word} {s : State} {e : Event}

/-! ### The guards -/

/-- An extended instruction that may not run enters the trap of its reason (R950, R951). -/
theorem exec_extended_traps (h : extendedWords i = some words) (hr : s.entryReady = true)
    (hx : s.extendedRuns = false) : Answers (exec i s)
      (s.entered (if s.cfg.rev = .rev1 then .systemCall else .extended) (s.pc - 2 * (words - 1)) s.ir) := by
  obtain ⟨body, run⟩ := exec_extended h s
  rw [run, extended_eq, if_neg (by simp [hx])]
  exact enter_answers hr _ _ _

/-- Settles O15: the guard of an extended instruction picks the trap. -/
theorem extendedTraps : Obligations.ExtendedTraps := by
  refine fun i words s h hr => ⟨fun rev => ?_, fun rev epa => ?_⟩
  · have trap := exec_extended_traps h hr (by simp [State.extendedRuns, rev])
    rwa [if_pos rev] at trap
  · have trap := exec_extended_traps h hr (by simp [State.extendedRuns, epa])
    rwa [if_neg (by simp [rev])] at trap

/-- A privileged instruction that may not run enters its trap (R1030). -/
theorem exec_privileged_traps (h : privilegedWords i = some words) (hr : s.entryReady = true)
    (ha : s.allowed i = false) : Answers (exec i s) (s.entered .privileged (s.pc - 2 * (words - 1)) s.ir) := by
  obtain ⟨body, run⟩ := exec_privileged h s
  rw [run, privileged_eq, if_neg (by simp [ha])]
  exact enter_answers hr _ _ _

/-! ### The first word -/

/-- A first word that traps is all that is fetched (R1012). -/
theorem runInstruction_enters (hpc : s.pcReady = true) (hr : s.entryReady = true)
    (htrap : firstWordTrap (s.peekWord .prog (evenAddress s.pc)) s = some e) :
    Answers (runInstruction s) (State.entered e (s.pc + 2) (s.peekWord .prog (evenAddress s.pc))
      { s with ir := s.peekWord .prog (evenAddress s.pc) }) := by
  obtain ⟨t, fetched, -, ht, -, -⟩ := fetchFirst_ready hpc
  have trap : firstWordTrap (s.peekWord .prog (evenAddress s.pc)) t = some e := by rw [ht]; exact htrap
  have pc : t.pc = s.pc + 2 := by rw [ht]
  obtain ⟨bus, trace, enters⟩ := enter_answers (s := t) (by rw [ht]; exact hr) e (s.pc + 2)
    (s.peekWord .prog (evenAddress s.pc))
  refine ⟨bus, trace, ?_⟩
  simp only [runInstruction, fetched, trap, pc]
  rw [enters, ht]
  rfl

/-- A first word that begins no instruction and is not of the unimplemented list is refused (R157). -/
theorem runInstruction_undecodable (hpc : s.pcReady = true)
    (htrap : firstWordTrap (s.peekWord .prog (evenAddress s.pc)) s = none)
    (hb : beginsInstruction (s.peekWord .prog (evenAddress s.pc)) = false) :
    ∃ e, runInstruction s = .refused (.undecodable e) := by
  obtain ⟨e, bad⟩ : ∃ e, decode1 (s.peekWord .prog (evenAddress s.pc)) = .bad e := by
    unfold beginsInstruction at hb
    split at hb
    next => cases hb
    next e h => exact ⟨e, h⟩
    next => cases hb
  refine ⟨e, runInstruction_error hpc htrap ?_⟩
  rw [State.decoded_eq, decodeWords_cons _ (unimplemented_of_noTrap htrap), bad]
  rfl

/-- Settles O7: each hypothesis picks its branch of `firstWordTrap`. -/
theorem stepTakesTrap : Obligations.StepTakesTrap := by
  intro s hf hpc hr w u
  have enters {e : Event} (trap : firstWordTrap w s = some e) : Answers (step s) (u.entered e (s.pc + 2) w) := by
    rw [step_fetches hf]
    exact runInstruction_enters (s := s.pinned) hpc hr trap
  refine ⟨fun h => enters ?_, fun hu hx rev epa => enters ?_, fun hu hx hb hp sys => enters ?_, fun hu hx hb => ?_⟩
  · obtain h | ⟨hx, rev⟩ := h
    · simp [firstWordTrap, h]
    · simp [firstWordTrap, hx, rev]
  · simp [firstWordTrap, hu, hx, rev, epa]
  · simp [firstWordTrap, hu, hx, hb, hp, sys]
  · rw [step_fetches hf]
    exact runInstruction_undecodable (s := s.pinned) hpc
      (show firstWordTrap w s = none by simp [firstWordTrap, hu, hx, hb]) hb

end

end Sys2Proof.Machine
end
section
/-! SC and IRET (R857, R858, R1010, R1016). -/

namespace Sys2Proof.Machine

section
variable {b : Byte} {s t : State}

/-- What a return leaves: the identifier dropped, FCW and PC popped (R857). -/
def State.returned (s : State) : State :=
  ((s.setWord 15 (s.word 15 + 6)).setFcw (Fcw.legal s.cfg (s.valueAt .w .stack (s.word 15 + 2)))).setPc
    (s.valueAt .w .stack (s.word 15 + 4))

theorem add_two_add_two (a : Word) : a + 2 + 2 = a + 4 := by bv_omega
theorem sub_six_add_two (a : Word) : a - 6 + 2 = a - 4 := by bv_omega
theorem sub_six_add_four (a : Word) : a - 6 + 4 = a - 2 := by bv_omega
theorem add_four_add_two (a : Word) : a + 4 + 2 = a + 6 := by bv_omega

theorem State.setWord_valueAt (c : Reg) (v : Word) (z : Size) (sp : Space) (a : Word) (s : State) :
    (s.setWord c v).valueAt z sp a = s.valueAt z sp a := by
  cases z <;> simp [State.valueAt]

/-- A return that can use the stack makes its two pops (R857). -/
theorem leave_answers (h : s.reaches .w (s.word 15) = true) : Answers (answer (leave s)) s.returned := by
  obtain ⟨trace, fcw⟩ := pop_events (s := s.setWord 15 (s.word 15 + 2))
    (by rw [State.word_setWord_self, State.setWord_reaches, State.reaches_add_two, h])
  rw [State.word_setWord_self, State.setWord_setWord, add_two_add_two, State.setWord_valueAt] at fcw
  generalize State.readEvents _ _ _ _ = es at fcw
  obtain ⟨trace', pc⟩ := pop_events (s := (s.setWord 15 (s.word 15 + 4)).recorded es trace) (by
    rw [State.recorded_word, State.recorded_reaches, State.word_setWord_self, State.setWord_reaches, ← add_two_add_two,
      State.reaches_add_two, State.reaches_add_two, h])
  rw [State.recorded_word, State.recorded_setWord, State.recorded_valueAt, State.word_setWord_self,
    State.setWord_setWord, add_four_add_two, State.setWord_valueAt] at pc
  generalize State.readEvents _ _ _ _ = es' at pc
  refine ⟨es' ++ (es ++ (s.setWord 15 (s.word 15 + 6)).bus), trace',
    answer_next.2 ((bind_goesOn fcw).trans ((bind_goesOn pc).trans ?_))⟩
  simp only [State.recorded_cfg, State.setWord_cfg]
  rfl

/-- Settles O12: the call is its entry sequence, the return its two pops. -/
theorem scAndIret : Obligations.ScAndIret :=
  ⟨fun _ _ h => enter_answers h _ _ _, fun _ ha h => Runs.ofBody (i := .iret) rfl (fun _ => leave_answers h) ha⟩

/-! ### A system call and its return -/

/-- FCW is what a write of its own word leaves, where Revision 1 has SYS = 1 and EPA = 0 (R47). -/
theorem Fcw.legal_fcwWord (h : s.Inv) : Fcw.legal s.cfg s.fcwWord = s.fcw := by
  obtain ⟨-, -, mode, ok⟩ := h
  have word := Fcw.ofWord_toWord s.cfg.fcwBits s.fcw ok
  rw [Fcw.legal, State.fcwWord, word]
  split
  next rev =>
    obtain ⟨sys, epa⟩ := mode rev
    rw [← sys, ← epa]
  next => rfl

/-- A system call that completes could use the system stack, and left the state of its entry sequence. -/
theorem sc_completes (h : exec (.sc b) s = .next t) : s.entryReady = true ∧ t.cfg = s.cfg ∧ t.nsp = s.nsp ∧
    t.regs = s.regs.set 15 (s.regs[15] - 6) ∧ t.mem = (s.pushed s.pc (0x7F#8 ++ b)).mem := by
  have ready : s.entryReady = true := by
    cases hr : s.entryReady with
    | true => rfl
    | false => exact nomatch h.symm.trans (faults (enter_odd hr _ _ _))
  obtain ⟨bus, trace, called⟩ := scAndIret.1 b s ready
  obtain rfl := Host.Outcome.next.inj (called.symm.trans h)
  exact ⟨ready, rfl, rfl, rfl, rfl⟩

/-- With SYS = 1 register 15 is the system stack pointer (R24). -/
theorem State.word_fifteen_of_sys (h : s.fcw.sys = true) : s.word 15 = s.regs[15] := by
  simp only [State.word, h, Bool.not_true, Bool.and_false]
  rfl

theorem State.setWord_fifteen_of_sys (h : s.fcw.sys = true) (v : Word) :
    s.setWord 15 v = { s with regs := s.regs.set 15 v } := by
  simp only [State.setWord, h, Bool.not_true, Bool.and_false]
  rfl

/-- A return in system mode to a state whose FCW and PC stand above its stack pointer (R857). -/
theorem iret_completes (sys : t.fcw.sys = true) (h : t.reaches .w (t.regs[15]) = true) : ∃ u, exec .iret t = .next u ∧
    u.pc = t.valueAt .w .stack (t.regs[15] + 4) ∧ u.fcw = Fcw.legal t.cfg (t.valueAt .w .stack (t.regs[15] + 2)) ∧
    u.regs = t.regs.set 15 (t.regs[15] + 6) ∧ u.nsp = t.nsp := by
  obtain ⟨-, iret⟩ := scAndIret
  have pointer := State.word_fifteen_of_sys sys
  obtain ⟨bus, trace, completes⟩ := iret t (by simp [State.allowed, sys]) (by rwa [pointer])
  rw [State.setWord_fifteen_of_sys sys, pointer] at completes
  exact ⟨_, completes, rfl, rfl, rfl, rfl⟩

/-- Settles O13: IRET pops the words the call pushed and puts the stack pointer back. -/
theorem scThenIret : Obligations.ScThenIret := by
  intro b s t inv call sys
  obtain ⟨ready, cfg, nsp, regs, mem⟩ := sc_completes call
  obtain ⟨pc, fcw, -⟩ := s.pushed_valueAt s.pc (0x7F#8 ++ b)
  have reads (a : Word) : t.valueAt .w .stack a = (s.pushed s.pc (0x7F#8 ++ b)).valueAt .w .stack a :=
    State.peekWord_congr (by rw [cfg, State.pushed_cfg]) (by rw [sys, State.pushed_fcw]) mem _ _
  have pointer : t.regs[15] = s.regs[15] - 6 := by simp [regs]
  have reaches : t.reaches .w (t.regs[15]) = true := by
    rw [pointer, ← sub_four_sub_two, ← sub_two_sub_two, State.reaches_sub_two, State.reaches_sub_two,
      State.reaches_sub_two, State.reaches, cfg]
    exact ready
  obtain ⟨u, back, hpc, hfcw, hregs, hnsp⟩ := iret_completes sys reaches
  refine ⟨u, back, ?_, ?_, ?_, hnsp.trans nsp⟩
  · rw [hpc, pointer, sub_six_add_four, reads, pc]
  · rw [hfcw, pointer, sub_six_add_two, reads, fcw, cfg, Fcw.legal_fcwWord inv]
  · rw [hregs, pointer, regs, BitVec.sub_add_cancel]
    simp

end

end Sys2Proof.Machine
end
section
/-! The flag instructions, DI and EI, and the multi-micro request (R850 to R855, R866, R867, R872, R873). -/

namespace Sys2Proof.Machine

section
variable {p : FcwBits} {s : State}

/-! ### A write of the flag byte -/

theorem withLowByte_getLsbD_low (w : Word) (b : Byte) {m : Nat} (h : m < 8) :
    ((w &&& 0xFF00) ||| b.setWidth 16).getLsbD m = b.getLsbD m := by
  interval_cases m <;> simp

theorem withLowByte_getLsbD_high (w : Word) (b : Byte) {m : Nat} (h : 8 ≤ m) (h' : m < 16) :
    ((w &&& 0xFF00) ||| b.setWidth 16).getLsbD m = w.getLsbD m := by
  interval_cases m <;> simp

/-- The control bits stand in the high byte and the flags in the low one, so a write of FCW with a new low byte is a write
of the flag byte (R35, R867). -/
theorem Fcw.ofWord_withLowByte (h : FcwBits.ok p = true) (k : Fcw) (b : Byte) :
    Fcw.ofWord p ((k.toWord p &&& 0xFF00) ||| b.setWidth 16) = k.withFlags p b := by
  have back : (Fcw.ofWord p (k.toWord p)).withFlags p b = k.withFlags p b := by rw [Fcw.ofWord_toWord p k h]
  obtain ⟨-, -, -, sys, -, -, epa, -, -, d, h, -, -, -, -⟩ := (FcwBits.ok_iff p).1 h
  rw [← back]
  simp only [Fcw.ofWord, Fcw.withFlags, withLowByte_getLsbD_high _ _ sys p.sys.isLt,
    withLowByte_getLsbD_high _ _ epa p.epa.isLt, withLowByte_getLsbD_high _ _ (show 8 ≤ 12 by decide) (by decide),
    withLowByte_getLsbD_high _ _ (show 8 ≤ 11 by decide) (by decide),
    withLowByte_getLsbD_low _ _ (show 7 < 8 by decide), withLowByte_getLsbD_low _ _ (show 6 < 8 by decide),
    withLowByte_getLsbD_low _ _ (show 5 < 8 by decide), withLowByte_getLsbD_low _ _ (show 4 < 8 by decide),
    withLowByte_getLsbD_low _ _ (show p.d.val < 8 by omega), withLowByte_getLsbD_low _ _ (show p.h.val < 8 by omega)]

/-- Settles O54: the meanings are those of the model but for LDCTLB, which is a write of FCW with a new low byte. -/
theorem flagInstructionResult : Obligations.FlagInstructionResult := by
  refine fun s => ⟨fun f => ⟨rfl, rfl, rfl⟩, rfl, fun c => ⟨rfl, rfl, fun h => ?_⟩, fun v => ⟨?_, ?_⟩⟩
  · rw [State.fcwWord, Fcw.ofWord_withLowByte h]
    rfl
  · exact Runs.ofBody rfl fun _ => Answers.next _
  · exact Runs.ofBody rfl fun _ => Answers.next _

/-! ### The multi-micro request -/

theorem takeMib_fcw (s : State) : (takeMib s).2.fcw = s.fcw := by
  unfold takeMib
  split <;> rfl

/-- A sample of the request line does not see the record and the points of a step. -/
theorem takeMib_recorded (es : List BusEvent) (trace : Option (List Point)) (s : State) :
    takeMib (s.recorded es trace) = ((takeMib s).1, (takeMib s).2.recorded es trace) := by
  cases h : s.mib with
  | nil =>
    rw [takeMib, show (s.recorded es trace).mib = [] from h, takeMib, h]
    rfl
  | cons b bs => rw [takeMib_cons h, takeMib_cons (s := s.recorded es trace) h]; rfl

theorem multiMicroRequest_eq (d : Reg) (s : State) : multiMicroRequest d s =
    if (takeMib s).1 then requestLine d (takeMib s).2 else requestBlocked (takeMib s).2 := rfl

/-- The line already asserted: the request is not made (R873). -/
theorem multiMicroRequest_blocked (d : Reg) (h : (takeMib s).1 = false) : multiMicroRequest d s =
    { (takeMib s).2 with fcw := { s.fcw with z := false, s := false }, mob := true } := by
  rw [multiMicroRequest_eq, if_neg (by simp [h]), requestBlocked, takeMib_fcw]

/-- The line free: the register counts down, and the second sample says whether the request is granted (R873). -/
theorem multiMicroRequest_made (d : Reg) (h : (takeMib s).1 = true) :
    ∃ trace, multiMicroRequest d s =
      { (takeMib ((takeMib s).2.setWord d 0)).2 with
        trace := trace
        fcw := { s.fcw with z := true, s := !(takeMib ((takeMib s).2.setWord d 0)).1 }
        mob := (takeMib ((takeMib s).2.setWord d 0)).1 } := by
  obtain ⟨trace, delay⟩ : ∃ trace, (takeMib s).2.intermediate [d] = (takeMib s).2.recorded [] trace := ⟨_, rfl⟩
  refine ⟨trace, ?_⟩
  rw [multiMicroRequest_eq, if_pos h, requestLine, delay, State.recorded_setWord, takeMib_recorded]
  simp only [State.recorded_fcw, takeMib_fcw, State.setWord_fcw]
  rfl

/-- Settles O56: MREQ by what its first sample finds. -/
theorem multiMicroResult : Obligations.MultiMicroResult := by
  refine fun s => ⟨Runs.ofBody rfl fun _ => Answers.next _, fun d => ⟨fun blocked => ?_, fun free => ?_⟩⟩
  · refine Runs.ofBody (i := .mreq d) rfl fun _ => ?_
    rw [multiMicroRequest_blocked d blocked]
    exact Answers.next _
  · obtain ⟨trace, made⟩ := multiMicroRequest_made d free
    refine Runs.ofBody (i := .mreq d) rfl fun _ => ?_
    rw [made]
    exact ⟨_, trace, rfl⟩

end

end Sys2Proof.Machine
end
section
/-! The privileged instructions trap in normal mode, and the default set names those of the table of R1041. -/

namespace Sys2Proof.Machine

section
variable {m : BitVec 2} {op : BitVec 6} {a b : BitVec 4} {i : Instr}

/-! ### A pattern of first words by fields -/

/-- What a pattern asks of the four fields of a first word (R111); the opcode decides most patterns. -/
def Pattern.row (p : Pattern) (m : BitVec 2) (op : BitVec 6) (a b : BitVec 4) : Bool :=
  op &&& opField p.mask == opField p.bits && m &&& modeField p.mask == modeField p.bits &&
    a &&& aField p.mask == aField p.bits && b &&& bField p.mask == bField p.bits

/-- A word is its four fields. -/
theorem firstWord_fields (w : Word) : firstWord (modeField w) (opField w) (aField w) (bField w) = w := by
  grind [firstWord, opField, modeField, aField, bField]

theorem word_eq_iff (v w : Word) : v = w ↔
    opField v = opField w ∧ modeField v = modeField w ∧ aField v = aField w ∧ bField v = bField w := by
  refine ⟨fun e => by simp [e], fun ⟨hop, hm, ha, hb⟩ => ?_⟩
  rw [← firstWord_fields v, hop, hm, ha, hb, firstWord_fields]

theorem Pattern.covers_firstWord (p : Pattern) (m : BitVec 2) (op : BitVec 6) (a b : BitVec 4) :
    Pattern.covers p (firstWord m op a b) = Pattern.row p m op a b := by
  have fields (v w : Word) : opField (v &&& w) = opField v &&& opField w ∧
      modeField (v &&& w) = modeField v &&& modeField w ∧ aField (v &&& w) = aField v &&& aField w ∧
      bField (v &&& w) = bField v &&& bField w :=
    ⟨BitVec.extractLsb'_and, BitVec.extractLsb'_and, BitVec.extractLsb'_and, BitVec.extractLsb'_and⟩
  obtain ⟨hop, hm, ha, hb⟩ := fields (firstWord m op a b) p.mask
  rw [Bool.eq_iff_iff, Pattern.covers, beq_iff_eq, word_eq_iff, hop, hm, ha, hb]
  simp [Pattern.row, and_assoc]

theorem privilegedWord_firstWord (ps : PrivSet) (m : BitVec 2) (op : BitVec 6) (a b : BitVec 4) :
    privilegedWord ps (firstWord m op a b) = ps.any fun p => Pattern.row p m op a b := by
  simp only [privilegedWord, Pattern.covers_firstWord]

/-! ### The default set -/

/-- The default set names the first word of `i` exactly when the table of R1041 names `i`. -/
def TableAgrees (i : Instr) : Prop :=
  privilegedWord Config.privAll (firstWordOf i) = (privilegedWords i).isSome

theorem tableAgrees_of_row (first : firstWordOf i = firstWord m op a b)
    (row : (Config.privAll.any fun p => Pattern.row p m op a b) = (privilegedWords i).isSome) : TableAgrees i := by
  rw [TableAgrees, first, privilegedWord_firstWord, row]

/-- Input and output: the upper bytes 0x3A to 0x3F, whatever the registers. -/
theorem tableAgrees_of_io (h : (op &&& 0x3E == 0x3A || op &&& 0x3C == 0x3C) = true)
    (first : firstWordOf i = firstWord 0 op a b) (named : (privilegedWords i).isSome = true) : TableAgrees i := by
  refine tableAgrees_of_row first ?_
  rw [named, Config.privAll, List.any_append, Bool.or_eq_true]
  refine .inl ?_
  simpa [Config.privIo, Pattern.row, opField, modeField, aField, bField] using h

theorem tableAgrees_of_pattern (p : Pattern) (mem : Config.privAll.contains p = true)
    (first : firstWordOf i = firstWord m op a b) (named : (privilegedWords i).isSome = true)
    (row : Pattern.row p m op a b = true) : TableAgrees i := by
  refine tableAgrees_of_row first ?_
  rw [named, List.any_eq_true]
  exact ⟨p, by simpa using mem, row⟩

/-- LDPS with an address register other than R0: one of its four bits is set. -/
theorem ldps_named : ∀ r : Reg, r ≠ 0 → (Config.privAll.any fun p => Pattern.row p 0 0x39 r 0) = true := by decide

/-- LDPS with an address: its register field is free. -/
theorem ldps_address_named : ∀ r : Reg, Pattern.row ⟨0xFF0F, 0x7900⟩ 1 0x39 r 0 = true := by decide

/-- The default set names no word of a compact format (R113). -/
theorem tableAgrees_compact (f : BitVec 2) (c : BitVec 4) (v : Byte)
    (first : firstWordOf i = (3#2 ++ f : BitVec 4) ++ c ++ v) (unnamed : privilegedWords i = none) : TableAgrees i := by
  refine tableAgrees_of_row (first.trans (compact_eq_firstWord f c v)) ?_
  rw [unnamed]
  simp [Config.privAll, Config.privIo, Pattern.row, opField, modeField, aField, bField]

/-- In the order of the rows of the table; after them the instructions it does not name, told by opcode and mode. -/
theorem tableAgrees (h : WellFormed i = true) : TableAgrees i := by
  cases i
  -- the rows of the table
  case inp d s | inpb d s | outp s d | outpb s d => cases s <;> exact tableAgrees_of_io rfl rfl rfl
  case sin | sinb | sout | soutb | ind | indb | sind | sindb | indr | indrb | sindr | sindrb | ini | inib | sini | sinib
    | inir | inirb | sinir | sinirb | outd | outdb | soutd | soutdb | otdr | otdrb | sotdr | sotdrb | outi | outib
    | souti | soutib | otir | otirb | sotir | sotirb => exact tableAgrees_of_io rfl rfl rfl
  case halt | iret | mset | mres | mbit => exact tableAgrees_of_row rfl rfl
  case di v | ei v => exact tableAgrees_of_pattern ⟨0xFFF8, 0x7C00⟩ rfl rfl rfl (by revert v; decide)
  case mreq d => exact tableAgrees_of_pattern ⟨0xFF0F, 0x7B0D⟩ rfl rfl rfl (by revert d; decide)
  case ldctlTo c r | ldctlFrom r c =>
    exact tableAgrees_of_pattern ⟨0xFF00, 0x7D00⟩ rfl rfl rfl (by revert r; cases c <;> decide)
  case ldps s =>
    cases s with
    | ind r => exact tableAgrees_of_row rfl (ldps_named r (Reg.nonzero_iff.mp h))
    | da address => exact tableAgrees_of_pattern ⟨0xFF0F, 0x7900⟩ rfl rfl rfl (ldps_address_named 0)
    | x address r => exact tableAgrees_of_pattern ⟨0xFF0F, 0x7900⟩ rfl rfl rfl (ldps_address_named r)
  -- formats with fields of their own
  case sc v =>
    have first : 0x7F#8 ++ v = firstWord 1 0x3F (v.extractLsb' 4 4) (v.extractLsb' 0 4) := by grind [firstWord]
    exact tableAgrees_of_row first rfl
  case ldbImmCompact d v => exact tableAgrees_compact 0 d v rfl rfl
  case calr v =>
    have first : (0xD#4 ++ v : Word) = (3#2 ++ 1#2 : BitVec 4) ++ v.extractLsb' 8 4 ++ v.extractLsb' 0 8 := by grind
    exact tableAgrees_compact _ _ _ first rfl
  case jr cc v => exact tableAgrees_compact 2 cc.code v rfl rfl
  case djnz r v =>
    have first : (0xF#4 ++ r ++ 1#1 ++ v : Word) = (3#2 ++ 3#2 : BitVec 4) ++ r ++ (1#1 ++ v) := by grind
    exact tableAgrees_compact _ _ _ first rfl
  case dbjnz r v =>
    have first : (0xF#4 ++ r ++ 0#1 ++ v : Word) = (3#2 ++ 3#2 : BitVec 4) ++ r ++ (0#1 ++ v) := by grind
    exact tableAgrees_compact _ _ _ first rfl
  -- the form of the operand decides the opcode
  case ld d s | ldb d s | ldl d s =>
    obtain _ | (_ | _ | _) := s <;> exact tableAgrees_of_row rfl rfl
  case ldStore d s | ldbStore d s | ldlStore d s =>
    cases d <;> exact tableAgrees_of_row rfl rfl
  case ldImm d v | ldbImm d v => cases d <;> exact tableAgrees_of_row rfl rfl
  case lda d s => cases s <;> exact tableAgrees_of_row rfl rfl
  case pushw p s => cases s <;> exact tableAgrees_of_row rfl rfl
  -- every other instruction has an opcode below 0x39, or mode 10
  all_goals exact tableAgrees_of_row rfl rfl

/-- Settles O14: the guard of a privileged instruction, and the default set against the table. -/
theorem privilegedTraps : Obligations.PrivilegedTraps :=
  ⟨fun _ _ _ named normal ready => exec_privileged_traps named ready normal, fun _ h => tableAgrees h⟩

end

end Sys2Proof.Machine
end
section
/-! The extended instructions where they run (R953 to R957, R959). Each transfer is followed one word at a time: the first
word is moved, and the words after it leave it where it is. -/

namespace Sys2Proof.Machine

section
variable {n : Nat} {sp : Space} {a : Word} {c : Reg} {i : Instr} {words : Word} {body : State → Comp State} {s t : State}

/-! ### A word of the EPU (R952) -/

theorem takeEpu_cons {w : Word} {ws : List Word} (h : s.epuIn = w :: ws) :
    takeEpu s = (w, { s with epuIn := ws }) := by
  rw [takeEpu, h]

theorem takeEpu_eq (s : State) :
    ∃ given free, (takeEpu s).2 = { s with epuIn := given, freeCount := free } := by
  unfold takeEpu
  split
  · exact ⟨s.epuIn, s.freeCount + 1, rfl⟩
  · exact ⟨_, s.freeCount, rfl⟩

theorem takeEpu_word (s : State) (c : Reg) : (takeEpu s).2.word c = s.word c := by
  obtain ⟨given, free, e⟩ := takeEpu_eq s
  rw [e]
  rfl

theorem takeEpu_fcw (s : State) : (takeEpu s).2.fcw = s.fcw := by
  obtain ⟨given, free, e⟩ := takeEpu_eq s
  rw [e]

theorem takeEpu_cfg (s : State) : (takeEpu s).2.cfg = s.cfg := by
  obtain ⟨given, free, e⟩ := takeEpu_eq s
  rw [e]

theorem takeEpu_mem (s : State) : (takeEpu s).2.mem = s.mem := by
  obtain ⟨given, free, e⟩ := takeEpu_eq s
  rw [e]

/-! ### From the EPU to registers (R953) -/

/-- From `s` to `t` the `n` registers from `c` on took a word each from the EPU, in one transaction a word, and of the rest
only the record, the points and what the environment still gives may differ. -/
structure EpuLoaded (n : Nat) (c : Reg) (s t : State) : Prop where
  taken : ∀ ws rest, s.epuIn = ws ++ rest → ws.length = n →
    t.epuIn = rest ∧ (∀ k (hk : k < ws.length), t.word (c + BitVec.ofNat 4 k) = ws[k]) ∧
    t.bus = (ws.map fun v => BusEvent.transfer .epuCpu s.fcw.sys true false 0 v).reverse ++ s.bus
  kept : ∀ r, (∀ k < n, r ≠ c + BitVec.ofNat 4 k) → t.word r = s.word r
  rest : t = { s with regs := t.regs, nsp := t.nsp, epuIn := t.epuIn, freeCount := t.freeCount, bus := t.bus,
                      trace := t.trace }

theorem EpuLoaded.refl (c : Reg) (s : State) : EpuLoaded 0 c s s where
  taken ws rest h hn := by
    obtain rfl := List.length_eq_zero_iff.mp hn
    exact ⟨h, nofun, rfl⟩
  kept _ _ := rfl
  rest := rfl

/-- One word more, in front. -/
theorem EpuLoaded.cons {trace : Option (List Point)} (hn : n < 16)
    (h : EpuLoaded n (c + 1) (((takeEpu s).2.recorded [.transfer .epuCpu s.fcw.sys true false 0 (takeEpu s).1]
      trace).setWord c (takeEpu s).1) t) : EpuLoaded (n + 1) c s t where
  taken ws rest hs hws := by
    obtain ⟨w, ws, rfl⟩ := List.exists_cons_of_length_eq_add_one hws
    have take := takeEpu_cons (ws := ws ++ rest) hs
    obtain ⟨left, loaded, bus⟩ := h.taken ws rest (by rw [State.setWord_epuIn, take]; rfl) (by simpa using hws)
    refine ⟨left, fun k hk => ?_, ?_⟩
    · cases k with
      | zero =>
        rw [reg_add_ofNat_zero, h.kept c fun k hk => reg_ne_later c (by omega), State.word_setWord_self, take]
        rfl
      | succ k => exact (reg_add_ofNat_succ c k).symm ▸ loaded k (by simpa using hk)
    · rw [bus, State.setWord_fcw, State.setWord_bus, State.recorded_fcw, takeEpu_fcw, take]
      simp [State.recorded]
  kept r hr := by
    have hc : r ≠ c := by simpa using hr 0 (by omega)
    rw [h.kept r fun k hk => reg_add_ofNat_succ c k ▸ hr (k + 1) (by omega), State.word_setWord_ne _ _ hc,
      State.recorded_word, takeEpu_word]
  rest := by
    obtain ⟨given, free, e⟩ := takeEpu_eq s
    obtain ⟨regs, nsp, e'⟩ := State.setWord_eq ((takeEpu s).2.recorded
      [.transfer .epuCpu s.fcw.sys true false 0 (takeEpu s).1] trace) c (takeEpu s).1
    rw [h.rest, e', e]
    rfl

theorem epuToRegs_succ (n : Nat) (c : Reg) (s : State) : ∃ trace, epuToRegs (n + 1) c s =
    epuToRegs n (c + 1) (((takeEpu s).2.recorded [.transfer .epuCpu s.fcw.sys true false 0 (takeEpu s).1]
      trace).setWord c (takeEpu s).1) := by
  rw [← takeEpu_fcw s]
  exact ⟨_, rfl⟩

theorem epuToRegs_loaded (n : Nat) (c : Reg) (s : State) (hn : n ≤ 16) : EpuLoaded n c s (epuToRegs n c s) := by
  induction n generalizing c s with
  | zero => exact EpuLoaded.refl c s
  | succ n ih =>
    obtain ⟨trace, e⟩ := epuToRegs_succ n c s
    rw [e]
    exact EpuLoaded.cons (by omega) (ih (c + 1) _ (by omega))

/-! ### From the EPU to memory (R953) -/

/-- The transaction in which the EPU gives the word `v` to the `k`th word from `sp:a` on. -/
def epuWrite (sp : Space) (a : Word) (s : State) (v : Word × Nat) : BusEvent :=
  .transfer sp.epuStatus s.fcw.sys false false (evenAddress (a + 2 * BitVec.ofNat 16 v.2)) v.1

/-- From `s` to `t` the `n` words from `sp:a` on were given by the EPU, in one transaction a word, and of the rest only the
record, the points and what the environment still gives may differ. -/
structure EpuStored (sp : Space) (n : Nat) (a : Word) (s t : State) : Prop where
  taken : ∀ ws rest, s.epuIn = ws ++ rest → ws.length = n →
    t.epuIn = rest ∧ (∀ k (hk : k < ws.length), t.valueAt .w sp (a + 2 * BitVec.ofNat 16 k) = ws[k]) ∧
    t.bus = (ws.zipIdx.map (epuWrite sp a s)).reverse ++ s.bus
  kept : ∀ y, (∀ k < n, s.covers .w sp (a + 2 * BitVec.ofNat 16 k) y = false) →
    Memory.read t.mem y = Memory.read s.mem y
  rest : t = { s with mem := t.mem, epuIn := t.epuIn, freeCount := t.freeCount, bus := t.bus, trace := t.trace }

theorem EpuStored.refl (sp : Space) (a : Word) (s : State) : EpuStored sp 0 a s s where
  taken ws rest h hn := by
    obtain rfl := List.length_eq_zero_iff.mp hn
    exact ⟨h, nofun, rfl⟩
  kept _ _ := rfl
  rest := rfl

/-- The word in front of those stored is still there. -/
theorem EpuStored.valueAt_earlier (hn : n < 16) (h : EpuStored sp n (a + 2) s t) :
    t.valueAt .w sp a = s.valueAt .w sp a := by
  have hi := h.kept (s.key sp (evenAddress a)) fun k hk => (s.not_covers_earlier sp a (by omega)).1
  have lo := h.kept (s.key sp (evenAddress a + 1)) fun k hk => (s.not_covers_earlier sp a (by omega)).2
  rw [h.rest]
  exact congrArg₂ (· ++ ·) hi lo

/-- The state after the first word the EPU gives to memory. -/
def State.epuPut (sp : Space) (a : Word) (trace : Option (List Point)) (s : State) : State :=
  ((takeEpu s).2.putAt .w sp a (takeEpu s).1).recorded [epuWrite sp a s ((takeEpu s).1, 0)] trace

/-- The indices of the words after the first are one more. -/
theorem epuWrite_zipIdx_cons (s : State) (w : Word) (ws : List Word) :
    ((w :: ws).zipIdx.map (epuWrite sp a s)).reverse =
      (ws.zipIdx.map (epuWrite sp (a + 2) s)).reverse ++ [epuWrite sp a s (w, 0)] := by
  have shift : (ws.zipIdx 1).map (epuWrite sp a s) = ws.zipIdx.map (epuWrite sp (a + 2) s) := by
    rw [List.zipIdx_succ, List.map_map]
    exact List.map_congr_left fun v _ => by simp only [epuWrite, Function.comp, add_two_mul]
  rw [List.zipIdx_cons, List.map_cons, List.reverse_cons, shift]

/-- One word more, in front. -/
theorem EpuStored.cons {trace : Option (List Point)} (hn : n < 16)
    (h : EpuStored sp n (a + 2) (s.epuPut sp a trace) t) : EpuStored sp (n + 1) a s t where
  taken ws rest hs hws := by
    obtain ⟨w, ws, rfl⟩ := List.exists_cons_of_length_eq_add_one hws
    have take := takeEpu_cons (ws := ws ++ rest) hs
    obtain ⟨left, stored, bus⟩ := h.taken ws rest (by rw [State.epuPut, take]; rfl) (by simpa using hws)
    refine ⟨left, fun k hk => ?_, ?_⟩
    · cases k with
      | zero =>
        rw [add_two_mul_zero, h.valueAt_earlier hn, State.epuPut, State.recorded_valueAt, take]
        exact State.valueAt_putAt_self ..
      | succ k => exact add_two_mul a k ▸ stored k (by simpa using hk)
    · rw [bus, epuWrite_zipIdx_cons, List.append_assoc, State.epuPut, take]
      rfl
  kept y hy := by
    have first : s.covers .w sp a y = false := by simpa using hy 0 (by omega)
    have later : ∀ k < n, s.covers .w sp (a + 2 + 2 * BitVec.ofNat 16 k) y = false := fun k hk =>
      add_two_mul a k ▸ hy (k + 1) (by omega)
    have same (b : Word) : (s.epuPut sp a trace).covers .w sp b y = s.covers .w sp b y := by
      refine State.covers_congr ?_ ?_ ..
      · exact (State.putAt_cfg ..).trans (takeEpu_cfg s)
      · exact congrArg Fcw.sys ((State.putAt_fcw ..).trans (takeEpu_fcw s))
    rw [h.kept y fun k hk => (same _).trans (later k hk)]
    refine (State.read_putAt_of_not_covers _ ?_).trans (congrArg (Memory.read · y) (takeEpu_mem s))
    exact (State.covers_congr (takeEpu_cfg s) (congrArg Fcw.sys (takeEpu_fcw s)) ..).trans first
  rest := by
    obtain ⟨given, free, e⟩ := takeEpu_eq s
    rw [h.rest, State.epuPut, State.putAt_eq, e]
    rfl

theorem epuToMem_stored (sp : Space) (n : Nat) (a : Word) (s : State) (hn : n ≤ 16) (h : s.reaches .w a = true) :
    ∃ t, epuToMem sp n a s = .ok t ∧ EpuStored sp n a s t := by
  induction n generalizing a s with
  | zero => exact ⟨s, rfl, EpuStored.refl sp a s⟩
  | succ n ih =>
    have ready : (takeEpu s).2.reaches .w a = true := (State.reaches_congr (takeEpu_cfg s) ..).trans h
    obtain ⟨trace, e⟩ := writeWordAs_events sp.epuStatus sp (takeEpu s).1 ready
    have first : epuWrite sp a s ((takeEpu s).1, 0) =
        .transfer sp.epuStatus (takeEpu s).2.fcw.sys false false (evenAddress a) (takeEpu s).1 := by
      rw [epuWrite, add_two_mul_zero, takeEpu_fcw]
    rw [← first] at e
    obtain ⟨t, e', ht⟩ := ih (a + 2) (s.epuPut sp a trace) (by omega) (by
      rw [State.reaches_add_two, State.epuPut, State.recorded_reaches, State.putAt_reaches, ready])
    exact ⟨t, (bind_goesOn e).trans e', ht.cons (by omega)⟩

/-! ### To the EPU (R954) -/

theorem reverse_map_range_succ {α : Type} (f : Nat → α) (n : Nat) :
    ((List.range (n + 1)).map f).reverse = ((List.range n).map fun k => f (k + 1)).reverse ++ [f 0] := by
  rw [List.range_succ_eq_map, List.map_cons, List.reverse_cons, List.map_map]
  rfl

theorem regsToEpu_recorded (n : Nat) (c : Reg) (s : State) : ∃ trace, regsToEpu n c s =
    s.recorded ((List.range n).map fun k =>
      BusEvent.transfer .epuCpu s.fcw.sys false false 0 (s.word (c + BitVec.ofNat 4 k))).reverse trace := by
  induction n generalizing c s with
  | zero => exact ⟨s.trace, rfl⟩
  | succ n ih =>
    obtain ⟨first, e⟩ : ∃ trace, s.note (.transfer .epuCpu s.fcw.sys false false 0 (s.word c)) =
      s.recorded [.transfer .epuCpu s.fcw.sys false false 0 (s.word c)] trace := ⟨_, rfl⟩
    obtain ⟨trace, e'⟩ := ih (c + 1) (s.recorded [.transfer .epuCpu s.fcw.sys false false 0 (s.word c)] first)
    refine ⟨trace, ?_⟩
    rw [regsToEpu, e, e', State.recorded_recorded, reverse_map_range_succ]
    simp only [State.recorded_fcw, State.recorded_word, reg_add_ofNat_succ, reg_add_ofNat_zero]

theorem readWordAs_events (st : Status) (sp : Space) (h : s.reaches .w a = true) : ∃ trace,
    readWordAs st sp a s = .ok (s.valueAt .w sp a,
      s.recorded [.transfer st s.fcw.sys true false (evenAddress a) (s.valueAt .w sp a)] trace) := by
  rw [readWordAs_eq, if_pos h]
  exact ⟨_, rfl⟩

theorem memToEpu_recorded (sp : Space) (n : Nat) (a : Word) (s : State) (h : s.reaches .w a = true) :
    ∃ trace, memToEpu sp n a s = .ok (s.recorded ((List.range n).map fun k =>
      BusEvent.transfer sp.epuStatus s.fcw.sys true false (evenAddress (a + 2 * BitVec.ofNat 16 k))
        (s.valueAt .w sp (a + 2 * BitVec.ofNat 16 k))).reverse trace) := by
  induction n generalizing a s with
  | zero => exact ⟨s.trace, rfl⟩
  | succ n ih =>
    obtain ⟨first, e⟩ := readWordAs_events sp.epuStatus sp h
    generalize hev : BusEvent.transfer sp.epuStatus s.fcw.sys true false (evenAddress a) (s.valueAt .w sp a) = ev at e
    obtain ⟨trace, e'⟩ := ih (a + 2) (s.recorded [ev] first) (by
      rw [State.recorded_reaches, State.reaches_add_two, h])
    refine ⟨trace, (bind_goesOn e).trans (e'.trans ?_)⟩
    rw [State.recorded_recorded, reverse_map_range_succ, ← hev]
    simp only [State.recorded_fcw, State.recorded_valueAt, add_two_mul, add_two_mul_zero]

/-! ### The guard of R950 and R951 -/

/-- An extended instruction that may run is its body (R950, R951). -/
theorem exec_extended_next (he : exec i s = answer (extended words body s)) (h : s.extendedRuns = true)
    (hb : body s = .ok t) : exec i s = .next t := by
  rw [he, extended_eq, if_pos h, hb]
  rfl

/-! ### The extended instructions -/

/-- R955, from the transaction on. -/
theorem epuToFlags_eq (s : State) : ∃ trace, epuToFlags s =
    (((takeEpu s).2.setFcw (s.fcw.withFlags s.cfg.fcwBits (loByte (takeEpu s).1))).recorded
      [.transfer .epuCpu s.fcw.sys true false 0 (takeEpu s).1] trace) := by
  rw [← takeEpu_fcw s, ← takeEpu_cfg s]
  exact ⟨_, rfl⟩

/-- FLAGS on the data lines are FCW without its control byte (R956). -/
theorem State.flags_setWidth (s : State) : s.flags.setWidth 16 = s.fcwWord &&& 0x00FF := by
  refine BitVec.eq_of_getLsbD_eq fun m hm => ?_
  interval_cases m <;> simp [State.flags, loByte]

/-- The first word of the internal operation (R957). -/
theorem epuiWord (a : BitVec 4) (b : BitVec 2) : firstWord 2 0x0E a (1#2 ++ b) = 0x8E#8 ++ a ++ 1#2 ++ b := by
  grind [firstWord]

/-- Settles O58: the guard lets the body run, and each body was followed above. -/
theorem extendedResult : Obligations.ExtendedResult := by
  intro s runs a w b h l n x
  have hn : n.toNat + 1 ≤ 16 := n.isLt
  refine ⟨fun c => ⟨?_, ?_⟩, fun m ready => ⟨?_, ?_⟩, ?_, ?_, ?_⟩
  · have ht := epuToRegs_loaded (n.toNat + 1) c s hn
    have within : Within none true s (epuToRegs (n.toNat + 1) c s) := epuToRegs_within ..
    exact ⟨_, exec_extended_next rfl runs rfl, ht.taken, fun r hr => ht.kept r fun k hk => hr k (by omega), within.nsp,
      within.ssp, ht.rest⟩
  · obtain ⟨trace, e⟩ := regsToEpu_recorded (n.toNat + 1) c s
    exact ⟨trace, exec_extended_next rfl runs (congrArg Except.ok e)⟩
  · obtain ⟨t, e, ht⟩ := epuToMem_stored (memEA m s).1 (n.toNat + 1) (memEA m s).2 s hn ready
    exact ⟨t, exec_extended_next rfl runs e, ht.taken, fun y hy => ht.kept y fun k hk => hy k (by omega), ht.rest⟩
  · obtain ⟨trace, e⟩ := memToEpu_recorded (memEA m s).1 (n.toNat + 1) (memEA m s).2 s ready
    exact ⟨trace, exec_extended_next rfl runs e⟩
  · obtain ⟨trace, e⟩ := epuToFlags_eq s
    exact ⟨trace, exec_extended_next rfl runs (congrArg Except.ok e)⟩
  · rw [← State.flags_setWidth]
    exact ⟨_, exec_extended_next rfl runs rfl⟩
  · rw [← epuiWord]
    exact ⟨_, exec_extended_next rfl runs rfl⟩

end

end Sys2Proof.Machine
end
